-- ==== Sys2Proof/Word.lean ====
section
/-! DEFINITION. The two word types of the block: the 16-bit command and data word (30_encoding R70, R76) and
the 8-bit register of the bank (10_state R21). -/

namespace Sys2Proof

/-- A command word, a response datum, or the STATUS word: 16 bits (R70, R76, R30). -/
abbrev Word := BitVec 16

/-- One register of the bank: 8 bits, bit 7 the most significant (R9, R21). -/
abbrev Byte := BitVec 8

end Sys2Proof
end

