-- ==== Sys2Proof/Syntax.lean ====
section
/-! DEFINITION. The commands of the block, one constructor per row of spec/opcode_table.json (30_encoding R73),
and the one-word aliases of R78. -/

namespace Sys2Proof

/-- A command with its operands. Indices are natural numbers (R9); that they fit the 11-bit field is
`Instr.WellFormed`. -/
inductive Instr where
  /-- `SETBIT idx, v`: set or clear one bank bit (40_bank_ops R90). -/
  | setbit (idx : Nat) (v : Bool)
  /-- `SETALL v`: set every bank bit to `v` (40_bank_ops R91). -/
  | setall (v : Bool)
  /-- `GETBIT idx`: return one bank bit (40_bank_ops R92). -/
  | getbit (idx : Nat)
  /-- `RDBYTE reg`: return one bank byte (40_bank_ops R93). -/
  | rdbyte (reg : Nat)
  /-- `COMMIT`: shift the bank out and latch it (41_commit R110). -/
  | commit
  /-- `SETOE v`: request Output-Enable state `v` (42_oe_mr_status R131). -/
  | setoe (v : Bool)
  /-- `MRESET`: the synchronous Master-Clear operation (42_oe_mr_status R133). -/
  | mreset
  /-- `STATUS`: return the STATUS word (42_oe_mr_status R136). -/
  | status
  deriving DecidableEq, Repr

/-- The mnemonic of R73, in capitals (R77). -/
def Instr.mnemonic : Instr → String
  | .setbit _ _ => "SETBIT"
  | .setall _ => "SETALL"
  | .getbit _ => "GETBIT"
  | .rdbyte _ => "RDBYTE"
  | .commit => "COMMIT"
  | .setoe _ => "SETOE"
  | .mreset => "MRESET"
  | .status => "STATUS"

/-- The pseudo-instructions of R78. -/
inductive Pseudo where
  | resetpins
  | clrall
  | oeon
  | oeoff
  | setpin (idx : Nat)
  | clrpin (idx : Nat)
  deriving DecidableEq, Repr

/-- Each pseudo-instruction is an exact alias of one command (R78). -/
def Pseudo.expand : Pseudo → Instr
  | .resetpins => .setall false
  | .clrall => .setall false
  | .oeon => .setoe true
  | .oeoff => .setoe false
  | .setpin idx => .setbit idx true
  | .clrpin idx => .setbit idx false

end Sys2Proof
end

