-- ==== Sys2Proof/WellFormed.lean ====
section
/-! DEFINITION. When a command can be encoded: its index operand fits the 11-bit field `arg` (30_encoding R71,
R72: "Every value of `arg` from 0 to 2047 can be encoded"). Whether an index is in range of the bank is a
question for execution (R72, 20_memory R53), not for this predicate. -/

namespace Sys2Proof

/-- The index fits `arg`, 11 bits (R71). -/
def argFits (k : Nat) : Bool := decide (k < 2048)

/-- Every operand fits its field of format C (R71). -/
def Instr.WellFormed : Instr → Bool
  | .setbit idx _ => argFits idx
  | .setall _ => true
  | .getbit idx => argFits idx
  | .rdbyte reg => argFits reg
  | .commit => true
  | .setoe _ => true
  | .mreset => true
  | .status => true

end Sys2Proof
end

