-- ==== Sys2Proof/Decode.lean ====
section
/-! DEFINITION. The command decoder and encoder (30_encoding R70 to R75, R80): the fields of format C, the opcode
map of R73 as a list of match and mask rows, a total decoder that rejects by name, and the encoder. -/

namespace Sys2Proof

/-- `op`, bits 15:12 (R71). -/
def fieldOp (w : Word) : BitVec 4 := w.extractLsb' 12 4

/-- `v`, bit 11: 1 is `true` (R71). -/
def fieldV (w : Word) : Bool := w.getLsbD 11

/-- `arg`, bits 10:0, unsigned, used as it stands (R71, R72). -/
def fieldArg (w : Word) : Nat := (w.extractLsb' 0 11).toNat

/-- The word of format C with the given fields: `op` at 15:12, `v` at 11, `arg` at 10:0 (R71), `a << k` being
`a * 2^k` (R9). -/
def packWord (op : BitVec 4) (v : Bool) (arg : Nat) : Word :=
  BitVec.ofNat 16 (op.toNat * 2 ^ 12 + v.toNat * 2 ^ 11 + arg % 2 ^ 11)

/-- One row of the opcode map (R73): the word `w` selects it when `w & mask = match`. -/
structure OpRow where
  mnemonic : String
  matchBits : Word
  mask : Word
  /-- The command of the row with the operands `v` and `arg`. -/
  build : Bool → Nat → Instr

/-- `(w & mask) == match` (R73). -/
def OpRow.selects (r : OpRow) (w : Word) : Bool := w &&& r.mask == r.matchBits

/-- The opcode map (R73). -/
def opcodeRows : List OpRow :=
  [ ⟨"SETBIT", 0x1000, 0xF000, fun v arg => .setbit arg v⟩,
    ⟨"SETALL", 0x2000, 0xF7FF, fun v _ => .setall v⟩,
    ⟨"GETBIT", 0x3000, 0xF800, fun _ arg => .getbit arg⟩,
    ⟨"RDBYTE", 0x4000, 0xF800, fun _ arg => .rdbyte arg⟩,
    ⟨"COMMIT", 0x5000, 0xFFFF, fun _ _ => .commit⟩,
    ⟨"SETOE", 0x6000, 0xF7FF, fun v _ => .setoe v⟩,
    ⟨"MRESET", 0x7000, 0xFFFF, fun _ _ => .mreset⟩,
    ⟨"STATUS", 0x8000, 0xFFFF, fun _ _ => .status⟩ ]

/-- Why a word is illegal (R75). -/
inductive DecodeError where
  /-- Opcode 0x0 or 0x9 to 0xF (R75). -/
  | unassignedOpcode (op : BitVec 4)
  /-- An assigned opcode with a non-zero reserved field (R74). -/
  | reservedField (op : BitVec 4)
  deriving DecidableEq, Repr

/-- Opcodes 0x1 to 0x8 are assigned (R73, R75). -/
def opAssigned (op : BitVec 4) : Bool := decide (1 ≤ op.toNat) && decide (op.toNat ≤ 8)

/-- The decoder: the row the word selects, or the reason there is none. Total, reads no state (R80). -/
def decodeWord (w : Word) : Except DecodeError Instr :=
  match opcodeRows.find? (fun r => r.selects w) with
  | some r => .ok (r.build (fieldV w) (fieldArg w))
  | none =>
    if opAssigned (fieldOp w) then .error (.reservedField (fieldOp w))
    else .error (.unassignedOpcode (fieldOp w))

/-- The opcode of a command (R73). -/
def Instr.opcode : Instr → BitVec 4
  | .setbit _ _ => 0x1
  | .setall _ => 0x2
  | .getbit _ => 0x3
  | .rdbyte _ => 0x4
  | .commit => 0x5
  | .setoe _ => 0x6
  | .mreset => 0x7
  | .status => 0x8

/-- The Boolean operand of a command; 0 where the field is reserved (R73, R74). -/
def Instr.vOperand : Instr → Bool
  | .setbit _ v => v
  | .setall v => v
  | .getbit _ => false
  | .rdbyte _ => false
  | .commit => false
  | .setoe v => v
  | .mreset => false
  | .status => false

/-- The index operand of a command; 0 where the field is reserved (R73, R74). -/
def Instr.argOperand : Instr → Nat
  | .setbit idx _ => idx
  | .setall _ => 0
  | .getbit idx => idx
  | .rdbyte reg => reg
  | .commit => 0
  | .setoe _ => 0
  | .mreset => 0
  | .status => 0

/-- The encoder: the word of a well-formed command (R71, R73). -/
def encode (i : Instr) : Word := packWord i.opcode i.vOperand i.argOperand

/-- What the decoder reads from a word given as a number of `nbits` bits, bit 0 the least significant; the bits
above `nbits` are 0. Commands are one 16-bit word (R70). -/
def decodeTableWord (nbits w : Nat) : Option Instr :=
  if nbits ≤ 16 then (decodeWord (BitVec.ofNat 16 (w % 2 ^ nbits))).toOption else none

end Sys2Proof
end

