-- ==== Sys2Proof/Config.lean ====
section
/-! DEFINITION. The implementation parameters of the block (00_scope R5), their well-formedness (R6), the binding
of the five roles (10_state R25), and the free values of the spec: the level a failed line write leaves (R176) and
the chips' contents at power-up (R150). -/

namespace Sys2Proof

/-- Which Master-Clear behaviour of the document's §4.5 the block implements: fixed to variant (a) (R5, R133,
R135). -/
inductive MrVariant where
  | sync
  deriving DecidableEq, Repr

/-- The parameters of R5, elaboration-time constants. -/
structure Cfg where
  /-- `N`, the number of chained 8-bit registers. -/
  n : Nat
  dsPin : Nat
  stcpPin : Nat
  shcpPin : Nat
  /-- 0 means the role is not wired. -/
  oePin : Nat
  /-- 0 means the role is not wired. -/
  mrPin : Nat
  /-- The strap `ctrl_avail`: the pin capability is available at construction. -/
  ctrlAvail : Bool
  /-- `PINFAULT`: a line write can fail. -/
  pinFault : Bool
  mrVariant : MrVariant
  /-- `T_GAP`: timing only; no rule depends on it (R5, R204) and nothing here reads it. -/
  tGap : Nat
  deriving DecidableEq, Repr

/-- `oeBound = (oePin > 0)` (R5). -/
def Cfg.oeBound (c : Cfg) : Bool := decide (0 < c.oePin)

/-- `mrBound = (mrPin > 0)` (R5). -/
def Cfg.mrBound (c : Cfg) : Bool := decide (0 < c.mrPin)

/-- `NBITS = 8 * N`, the number of addressable bit positions (R5). -/
def Cfg.nbits (c : Cfg) : Nat := 8 * c.n

/-- The pin identifiers of the bound roles (R6). -/
def Cfg.boundPins (c : Cfg) : List Nat :=
  [c.dsPin, c.stcpPin, c.shcpPin] ++ (if c.oeBound then [c.oePin] else []) ++
    (if c.mrBound then [c.mrPin] else [])

/-- R6: `1 ≤ N ≤ 256` and the pin identifiers of the bound roles are pairwise distinct. -/
def Cfg.wf (c : Cfg) : Bool :=
  decide (1 ≤ c.n) && decide (c.n ≤ 256) && decide c.boundPins.Nodup

/-- A role: bound to a handle, or unbound (R25). -/
inductive Role where
  | bound (handle : Nat)
  | unbound
  deriving DecidableEq, Repr

/-- An optional role: 0 is "not wired", any value above 0 binds the line (R5, R25). -/
def Role.ofOptionalPin (pin : Nat) : Role := if pin = 0 then .unbound else .bound pin

/-- The three-pin minimal form of R25 with every default of R5: DS=1, ST_CP=2, SH_CP=3, N = 1.
DESIGN CHOICE (log entry 1): the mandatory pins have no default in the spec. -/
def Cfg.default : Cfg where
  n := 1
  dsPin := 1
  stcpPin := 2
  shcpPin := 3
  oePin := 0
  mrPin := 0
  ctrlAvail := true
  pinFault := false
  mrVariant := .sync
  tGap := 0

/-- Free value (R176: "a draw"): whether the `k`-th failed line write left the level it was writing (true) or
the old one (false). No body: nothing can be proved of it (log entry 4). -/
opaque Config.failedWriteTakes : Nat → Bool

/-- Free value (R150: "At power-up both arrays hold arbitrary values"): the shift stage at power-up (log entry 3). -/
opaque Config.powerUpShift : Nat → Bool

/-- Free value (R150): the storage stage at power-up (log entry 3). -/
opaque Config.powerUpStorage : Nat → Bool

end Sys2Proof
end

