-- ==== Sys2Proof/Machine/State.lean ====
section
/-! DEFINITION. The state: everything 10_state R20 gives the block, the response port of R32, the chain of
45_chain_reference R150, the observation histories of 00_scope R8, the configuration of R5, and the host's and the
environment's inputs not yet taken (R185, R176). Plain data throughout. -/

namespace Sys2Proof.Machine

/-- A line level: not driven, Low, High (00_scope R10). -/
inductive Level where
  | z
  | l
  | h
  deriving DecidableEq, Repr

/-- The five lines (R10). -/
inductive Line where
  /-- Data. -/
  | ds
  /-- Shift-Clock. -/
  | shcp
  /-- Latch-Clock. -/
  | stcp
  /-- Output-Enable, active-Low. -/
  | oe
  /-- Master-Clear, active-Low. -/
  | mr
  deriving DecidableEq, Repr

/-- The five line registers `lvl[X]` (R24). -/
structure Lines where
  ds : Level
  shcp : Level
  stcp : Level
  oe : Level
  mr : Level
  deriving DecidableEq, Repr

/-- All five lines released (R33, R190). -/
def Lines.released : Lines := ⟨.z, .z, .z, .z, .z⟩

/-- The operating modes (R27). -/
inductive Mode where
  | init
  | idle
  | busy
  | failed
  deriving DecidableEq, Repr

/-- Which micro-sequence is running (R28). -/
inductive Cur where
  | none
  | init
  | commit
  | mreset
  deriving DecidableEq, Repr

/-- The response codes (30_encoding R76). -/
inductive Code where
  | ok
  | unavail
  | errRange
  | errIllegal
  | errPin
  deriving DecidableEq, Repr

/-- One response: the command word it answers, the code, the data (R8, R76). -/
structure Response where
  word : Word
  code : Code
  data : Word
  deriving DecidableEq, Repr

/-- A line-write event: `W(line, level)`, or `WF(line, level)` for a failed write (R8, R176). -/
inductive Event where
  | w (line : Line) (level : Level)
  | wf (line : Line) (level : Level)
  deriving DecidableEq, Repr

/-- The chained chips: the shift stage and the storage stage, index 0 nearest the host (R150). -/
structure Chain where
  sh : List Bool
  q : List Bool
  deriving DecidableEq, Repr

/-- What the host does in one step (R185, R32). -/
inductive HostMove where
  /-- `cmd_valid = 0`. -/
  | wait
  /-- `cmd_valid = 1` with this word in this step only: withdrawn if it is not accepted. -/
  | present (w : Word)
  /-- `cmd_valid = 1` with this word, held until it is accepted. -/
  | issue (w : Word)
  /-- `rst = 1` in this step, with the strap `ctrl_avail` at this value from here on. -/
  | reset (ctrlAvail : Bool)
  deriving DecidableEq, Repr

/-- The bank as data: (register, byte) pairs, registers strictly rising, no byte 0x00 listed; an unlisted
register holds 0x00, the reset contents of R33. -/
abbrev Memory := List Host.Cell

/-- Faults: the machine stops. -/
inductive Fault where
  /-- Raised by the controller's step when `cur` and `upc` name no micro-operation. The spec gives no such
  state (R20, R28); no run from reset reaches it. Safe: the model stops. -/
  | noMicroOp
  deriving DecidableEq, Repr

/-- Refusals: no behaviour is given. -/
inductive Refusal where
  /-- Raised by an arm of `exec` whose instruction has no meaning yet; no arm does. Safe: the model stops. -/
  | notModelled (mnemonic : String)
  /-- Raised by every step and every command under a configuration that is not well formed: R6 "a model refuses
  (gives no behaviour to) a configuration that is not well formed". Safe: the model stops. -/
  | illFormedConfig
  deriving DecidableEq, Repr

/-- The state of the machine. -/
structure State where
  /-- The configuration (R5), constant while the block runs. -/
  cfg : Cfg
  /-- `bits[0..N-1]`, the bank (R21). -/
  bits : Memory
  /-- `lvl[X]`, the line registers (R24). -/
  lines : Lines
  /-- The cached Output-Enable state (R26). -/
  outputEnabled : Bool
  /-- The operating mode (R27). -/
  mode : Mode
  /-- The running micro-sequence (R28). -/
  cur : Cur
  /-- The position in it (R28). -/
  upc : Nat
  /-- Sticky: a programmer error has been reported since reset (R29). -/
  perr : Bool
  /-- Sticky: a line write has failed since reset (R29). -/
  pf : Bool
  /-- The response port of the step just taken: `rsp_valid`, and `rsp_code` and `rsp_data` when it is 1 (R32). -/
  rsp : Option Response
  /-- The chips (R150): environment. -/
  chain : Chain
  /-- The line writes since reset, oldest first (R8): observation. -/
  trace : List Event
  /-- The responses since reset, oldest first (R8): observation. -/
  responses : List Response
  /-- The host's moves not yet made (R185): environment. -/
  host : List HostMove
  /-- The answers not yet given to "does this line write fail?" (R176): environment; none left means no. -/
  pinErr : List Bool
  /-- How many failed writes have drawn a level so far: the model's own, for the free value of R176. -/
  draws : Nat
  deriving DecidableEq, Repr

/-- The chips at power-up: 8*N stages of arbitrary contents (R150; log entry 3). -/
def Chain.powerUp (n : Nat) : Chain :=
  ⟨(List.range (8 * n)).map Config.powerUpShift, (List.range (8 * n)).map Config.powerUpStorage⟩

/-- The machine right after `rst` at power-up, for any configuration: the "after `rst`" column of R33. -/
def State.powerUp (cfg : Cfg) : State where
  cfg := cfg
  bits := []
  lines := Lines.released
  outputEnabled := !cfg.oeBound
  mode := .init
  cur := .init
  upc := 0
  perr := false
  pf := false
  rsp := none
  chain := Chain.powerUp cfg.n
  trace := []
  responses := []
  host := []
  pinErr := []
  draws := 0

/-- The machine right after reset, in the default configuration of R5 (log entry 1). -/
def State.reset : State := State.powerUp Cfg.default

end Sys2Proof.Machine
end

