-- ==== Sys2Proof/Machine/Chain.lean ====
section
/-! DEFINITION. The reference model of the driven chain (45_chain_reference R150 to R156) and the access to the
five line registers (10_state R24). -/

namespace Sys2Proof.Machine

/-- `lvl(b)`: High for 1, Low for 0 (R10). -/
def Level.ofBool (b : Bool) : Level := if b then .h else .l

/-- `lvl[X]` (R11). -/
def Lines.get (ln : Lines) : Line → Level
  | .ds => ln.ds
  | .shcp => ln.shcp
  | .stcp => ln.stcp
  | .oe => ln.oe
  | .mr => ln.mr

/-- `lvl[X] <- v` (R11). -/
def Lines.set (ln : Lines) (x : Line) (v : Level) : Lines :=
  match x with
  | .ds => { ln with ds := v }
  | .shcp => { ln with shcp := v }
  | .stcp => { ln with stcp := v }
  | .oe => { ln with oe := v }
  | .mr => { ln with mr := v }

/-- `Z` read as `L` (R151). -/
def Level.pulledDown : Level → Level
  | .z => .l
  | .l => .l
  | .h => .h

/-- `Z` read as `H` (R151). -/
def Level.pulledUp : Level → Level
  | .z => .h
  | .l => .l
  | .h => .h

/-- `eff(X)`, the level the chain sees (R151). -/
def eff (cfg : Cfg) (ln : Lines) : Line → Level
  | .ds => ln.ds.pulledDown
  | .shcp => ln.shcp.pulledDown
  | .stcp => ln.stcp.pulledDown
  | .oe => if cfg.oeBound then ln.oe.pulledUp else .l
  | .mr => if cfg.mrBound then ln.mr.pulledUp else .h

/-- The shift stage set to all zero (R154). -/
def Chain.clear (c : Chain) : Chain := { c with sh := List.replicate c.sh.length false }

/-- A shift: `sh[k] <- sh[k-1]`, `sh[0] <- d`, the last bit lost (R153). -/
def Chain.shift (d : Bool) (c : Chain) : Chain := { c with sh := (d :: c.sh).take c.sh.length }

/-- A latch: `q[k] <- sh[k]` for every `k` (R156). -/
def Chain.latch (c : Chain) : Chain := { c with q := c.sh }

/-- The reaction to a write of line `x` that took the lines from `before` to `after` (R152). -/
def Chain.react (cfg : Cfg) (before after : Lines) (x : Line) (c : Chain) : Chain :=
  let rising := eff cfg before x = .l ∧ eff cfg after x = .h
  match x with
  | .mr => if eff cfg after .mr = .l then c.clear else c
  | .shcp =>
    if rising then
      (if eff cfg after .mr = .l then c.clear else c.shift (decide (eff cfg after .ds = .h)))
    else c
  | .stcp => if rising then c.latch else c
  | .oe => c
  | .ds => c

/-- What output pin `k` of the chain shows: `q[k]` when `eff(OE) = L`, not driven otherwise (R155). -/
def State.outputPin (s : State) (k : Nat) : Level :=
  if eff s.cfg s.lines .oe = .l then Level.ofBool (s.chain.q.getD k false) else .z

end Sys2Proof.Machine
end

