-- ==== Sys2Proof/Machine/Flags.lean ====
section
/-! DEFINITION. The flags: the sticky error flags (10_state R29), the STATUS word (R30, 42_oe_mr_status R136), and
the response codes as bits (30_encoding R76). -/

namespace Sys2Proof.Machine

/-- `PERR <- true` (R29). -/
def State.setPerr (s : State) : State := { s with perr := true }

/-- `PF <- true` (R29). -/
def State.setPf (s : State) : State := { s with pf := true }

/-- The STATUS word: `((N - 1) << 8) | (PF << 4) | (PERR << 3) | (mrBound << 2) | (oeBound << 1) | outputEnabled`
(R136); the fields of R30 do not overlap, so `|` is a sum. -/
def State.statusWord (s : State) : Word :=
  BitVec.ofNat 16
    ((s.cfg.n - 1) * 2 ^ 8 + s.pf.toNat * 2 ^ 4 + s.perr.toNat * 2 ^ 3 + s.cfg.mrBound.toNat * 2 ^ 2 +
      s.cfg.oeBound.toNat * 2 + s.outputEnabled.toNat)

/-- The 3-bit response code (R76); 5 to 7 are never produced. -/
def Code.bits : Code → BitVec 3
  | .ok => 0
  | .unavail => 1
  | .errRange => 2
  | .errIllegal => 3
  | .errPin => 4

end Sys2Proof.Machine
end

