-- ==== Sys2Proof/Machine/Memory.lean ====
section
/-! DEFINITION. The bank as a canonical list of (register, byte) pairs: the byte space of 20_memory R50. -/

namespace Sys2Proof.Machine

/-- The canonical form: registers strictly rising, no 0x00 listed. -/
abbrev Memory.wf (m : Memory) : Prop :=
  m.Pairwise (fun p p' => p.1 < p'.1) ∧ ∀ p ∈ m, p.2 ≠ 0

/-- Every listed register is one of the `n` registers of the bank (R21). -/
abbrev Memory.within (m : Memory) (n : Nat) : Prop := ∀ p ∈ m, p.1 < n

/-- What an unlisted register reads as: the reset contents, 0x00 (R33). -/
def Memory.unlisted : Byte := 0

/-- `bits[r]` (R11). -/
def Memory.read : Memory → Nat → Byte
  | [], _ => Memory.unlisted
  | (a, x) :: m, r => if a = r then x else Memory.read m r

/-- The list with register `r` holding `v` put before `m`, or `m` itself where `v` is what an unlisted register
reads as. -/
def Memory.cons (r : Nat) (v : Byte) (m : Memory) : Memory :=
  if v = Memory.unlisted then m else (r, v) :: m

/-- `bits[r] <- v` (R11), keeping the canonical form. -/
def Memory.write : Memory → Nat → Byte → Memory
  | [], r, v => Memory.cons r v []
  | (a, x) :: m, r, v =>
    if r < a then Memory.cons r v ((a, x) :: m)
    else if r = a then Memory.cons r v m
    else (a, x) :: Memory.write m r v

/-- `for r in 0 .. N-1: bits[r] <- v` (R91, R134, R191). -/
def Memory.fill (n : Nat) (v : Byte) : Memory :=
  if v = Memory.unlisted then [] else (List.range n).map (fun r => (r, v))

end Sys2Proof.Machine
end

