-- ==== Sys2Proof/Machine/Operands.lean ====
section
/-! DEFINITION. The operand forms: the logical bit index and its split (10_state R22, 20_memory R51), the bit
accessors BitRead and BitWrite (00_scope R12), the range checks (20_memory R53), and the zero extension of a
result (00_scope R9). -/

namespace Sys2Proof.Machine

/-- `registerIndex = idx / 8` (R22). -/
def regIndex (idx : Nat) : Nat := idx / 8

/-- `bitIndex = idx % 8` (R22). -/
def bitIndex (idx : Nat) : Nat := idx % 8

/-- `idx >= 8*N` is out of range (R53). -/
def bitInRange (cfg : Cfg) (idx : Nat) : Bool := decide (idx < cfg.nbits)

/-- `reg >= N` is out of range (R53). -/
def regInRange (cfg : Cfg) (reg : Nat) : Bool := decide (reg < cfg.n)

/-- `BitRead(idx) = bits[idx / 8][idx % 8]` (R12). -/
def Memory.bitRead (m : Memory) (idx : Nat) : Bool := (m.read (regIndex idx)).getLsbD (bitIndex idx)

/-- The byte with bit `j` replaced by `v`: `b | (1 << j)` or `b & (0xFF - (1 << j))` (R90). -/
def byteWithBit (b : Byte) (j : Nat) (v : Bool) : Byte :=
  if v then b ||| (1#8 <<< j) else b &&& (0xFF#8 - (1#8 <<< j))

/-- `BitWrite(idx, v)` (R12). -/
def Memory.bitWrite (m : Memory) (idx : Nat) (v : Bool) : Memory :=
  m.write (regIndex idx) (byteWithBit (m.read (regIndex idx)) (bitIndex idx) v)

/-- The byte of SETALL: 0xFF for 1, 0x00 for 0 (R91). -/
def fillByte (v : Bool) : Byte := if v then 0xFF else 0x00

/-- `zext_16` of a bit (R92). -/
def zextBit (b : Bool) : Word := (BitVec.ofBool b).setWidth 16

/-- `zext_16` of a byte (R93). -/
def zextByte (b : Byte) : Word := b.setWidth 16

end Sys2Proof.Machine
end

