-- ==== Sys2Proof/Machine/Ops.lean ====
section
/-! DEFINITION. The named operations the meanings share: Drive and Respond (00_scope R12), raise (R13, 60_exceptions
R171 to R176, R179: the block's only "exception entry"), acceptance (10_state R27, R32), reset (70_reset R190), and
the host's side of the command port (R32, R185). There is no return from an exception: nothing is saved and nothing
is restored (R179, R180). -/

namespace Sys2Proof.Machine

/-- `Respond(code, data)` for the command word `w` (R12, R76): the response port and the response log. -/
def State.respond (s : State) (w : Word) (code : Code) (data : Word) : State :=
  { s with rsp := some ⟨w, code, data⟩, responses := s.responses ++ [⟨w, code, data⟩] }

/-- The end of a micro-sequence or command: `mode <- IDLE`, `cur <- none`, `upc <- 0` (R112, R176). -/
def State.toIdle (s : State) : State := { s with mode := .idle, cur := .none, upc := 0 }

/-- Construction failed: `FAILED`, with `cur = none` and `upc = 0` (R175, R176, R28). -/
def State.toFailed (s : State) : State := { s with mode := .failed, cur := .none, upc := 0 }

/-- The exceptions of R13. `Unavail` is not among them: it is a status (R174). -/
inductive Exn where
  | illegal
  | range
  | pinFault
  deriving DecidableEq, Repr

/-- `raise E` for the command word `w` (R13, R173): the state change 60_exceptions gives `E`, and the response
with data 0. `PF` is set where the write fails (`State.driveFails`). -/
def State.raise (s : State) (e : Exn) (w : Word) : State :=
  match e with
  | .illegal => s.setPerr.respond w .errIllegal 0
  | .range => s.setPerr.respond w .errRange 0
  | .pinFault => s.toIdle.respond w .errPin 0

/-- Append one event to the trace (R8). -/
def State.logEvent (s : State) (e : Event) : State := { s with trace := s.trace ++ [e] }

/-- `lvl[X] <- v`, and the chain reacts (R12, R152). -/
def State.setLine (s : State) (x : Line) (v : Level) : State :=
  { s with
    lines := s.lines.set x v
    chain := s.chain.react s.cfg s.lines (s.lines.set x v) x }

/-- A line write that succeeds (R12). -/
def State.driveSucceeds (s : State) (x : Line) (high : Bool) : State :=
  (s.logEvent (.w x (Level.ofBool high))).setLine x (Level.ofBool high)

/-- The level a failed write of `v` leaves on line `x`: the old one or `v`, a draw (R176). -/
def State.drawnLevel (s : State) (x : Line) (v : Level) : Level :=
  if Config.failedWriteTakes s.draws then v else s.lines.get x

/-- A line write that fails (R176): `WF` in the trace, the drawn level, `PF` set. The chips react to whichever level
is drawn (R176), so a failed last write `Drive(STCP, H)` that is drawn High from Low latches; R117 says that after a
failed write the storage stage still holds the previous pattern. DEDUCED: R176 is followed (log entry 17). -/
def State.driveFails (s : State) (x : Line) (high : Bool) : State :=
  { ((s.logEvent (.wf x (Level.ofBool high))).setLine x (s.drawnLevel x (Level.ofBool high))).setPf with
    draws := s.draws + 1 }

/-- What a `Drive` comes to. -/
inductive DriveResult where
  | done (s : State)
  | failed (s : State)
  deriving DecidableEq, Repr

/-- The oracle's answer to the next `Drive`: only with `PINFAULT` can a write fail (R176). -/
def State.writeFails (s : State) : Bool := s.cfg.pinFault && s.pinErr.headD false

/-- The oracle has answered once; without `PINFAULT` it is not asked (R176). -/
def State.askedOracle (s : State) : State :=
  { s with pinErr := if s.cfg.pinFault then s.pinErr.tail else s.pinErr }

/-- `Drive(X, level)` (R12): the oracle is asked once, and the write succeeds or fails. -/
def State.drive (s : State) (x : Line) (high : Bool) : DriveResult :=
  if s.writeFails then .failed (s.askedOracle.driveFails x high)
  else .done (s.askedOracle.driveSucceeds x high)

/-- Every bank byte to 0x00 (R134, R191). -/
def State.zeroBank (s : State) : State := { s with bits := Memory.fill s.cfg.n 0 }

/-- Executing a command (R27, R32, R6). A configuration that is not well formed is refused. A command is accepted
only in `IDLE`; presented in any other mode it "has no effect whatever" (R32). -/
def State.accept (s : State) (run : State → State) : Host.Outcome State Fault Refusal :=
  if s.cfg.wf then
    if s.mode = .idle then .next (run s) else .next s
  else .refused .illFormedConfig

/-- Accepting a command that runs as a micro-sequence: `cur <- c`, `upc <- 0`, `mode <- BUSY` (R112, R134). -/
def State.startSequence (s : State) (c : Cur) : State := { s with mode := .busy, cur := c, upc := 0 }

/-- `rst` (R190): the "after `rst`" column of R33 whatever the mode, fresh histories, the chain untouched. The
strap `ctrl_avail` is at `avail` from here on (R32, R185). -/
def State.assertRst (s : State) (avail : Bool) : State :=
  { s with
    cfg := { s.cfg with ctrlAvail := avail }
    bits := []
    lines := Lines.released
    outputEnabled := !s.cfg.oeBound
    mode := .init
    cur := .init
    upc := 0
    perr := false
    pf := false
    rsp := none
    trace := []
    responses := [] }

/-- `rsp_valid` is 1 for one cycle only: each step begins with no response presented (R32). -/
def State.clearRsp (s : State) : State := { s with rsp := none }

/-- The word on the command port in this step: `cmd` when `cmd_valid = 1` (R32). -/
def State.presented (s : State) : Option Word :=
  match s.host with
  | .present w :: _ => some w
  | .issue w :: _ => some w
  | _ => none

/-- The host's next move is made. -/
def State.popHost (s : State) : State := { s with host := s.host.tail }

/-- The host after a step in which nothing was accepted: a held word stays on the port, every other move is
made (R32, R185). -/
def State.hostWaits (s : State) : State :=
  match s.host with
  | .issue _ :: _ => s
  | _ => s.popHost

end Sys2Proof.Machine
end

