-- ==== Sys2Proof/Machine/BankCommands.lean ====
section
/-! DEFINITION. The bank family: SETBIT, SETALL, GETBIT, RDBYTE (40_bank_ops R90 to R93). Each is executed entirely
within `IDLE` in one step and touches no line. -/

namespace Sys2Proof.Machine

/-- `SETBIT idx, v` (R90). -/
def execSetbit (idx : Nat) (v : Bool) (s : State) : Host.Outcome State Fault Refusal :=
  s.accept fun s =>
    if bitInRange s.cfg idx then
      { s with bits := s.bits.bitWrite idx v }.respond (encode (.setbit idx v)) .ok 0
    else s.raise .range (encode (.setbit idx v))

/-- `SETALL v` (R91). -/
def execSetall (v : Bool) (s : State) : Host.Outcome State Fault Refusal :=
  s.accept fun s =>
    { s with bits := Memory.fill s.cfg.n (fillByte v) }.respond (encode (.setall v)) .ok 0

/-- `GETBIT idx` (R92). -/
def execGetbit (idx : Nat) (s : State) : Host.Outcome State Fault Refusal :=
  s.accept fun s =>
    if bitInRange s.cfg idx then
      s.respond (encode (.getbit idx)) .ok (zextBit (s.bits.bitRead idx))
    else s.raise .range (encode (.getbit idx))

/-- `RDBYTE reg` (R93). -/
def execRdbyte (reg : Nat) (s : State) : Host.Outcome State Fault Refusal :=
  s.accept fun s =>
    if regInRange s.cfg reg then
      s.respond (encode (.rdbyte reg)) .ok (zextByte (s.bits.read reg))
    else s.raise .range (encode (.rdbyte reg))

end Sys2Proof.Machine
end

