-- ==== Sys2Proof/Machine/OutputEnable.lean ====
section
/-! DEFINITION. The output-enable and reset family: SETOE (42_oe_mr_status R130 to R132), MRESET (R133, R134) and
STATUS (R136). The line writes of MRESET are the sequencer's (Machine/Sequencer.lean). -/

namespace Sys2Proof.Machine

/-- `SETOE v` (R131): the same-value test first, then the binding, then one line write, active-Low. A failed write
leaves `outputEnabled` (R176). -/
def execSetoe (v : Bool) (s : State) : Host.Outcome State Fault Refusal :=
  s.accept fun s =>
    if v = s.outputEnabled then s.respond (encode (.setoe v)) .ok 0
    else if s.cfg.oeBound then
      match s.drive .oe (!v) with
      | .done t => { t with outputEnabled := v }.respond (encode (.setoe v)) .ok 0
      | .failed t => t.raise .pinFault (encode (.setoe v))
    else s.respond (encode (.setoe v)) .unavail 0

/-- `MRESET` (R133, R134): unbound, a status and nothing else; bound, the sequence is started. -/
def execMreset (s : State) : Host.Outcome State Fault Refusal :=
  s.accept fun s =>
    if s.cfg.mrBound then s.startSequence .mreset
    else s.respond (encode .mreset) .unavail 0

/-- `STATUS` (R136). -/
def execStatus (s : State) : Host.Outcome State Fault Refusal :=
  s.accept fun s => s.respond (encode .status) .ok s.statusWord

end Sys2Proof.Machine
end

