-- ==== Sys2Proof/Machine/Sequencer.lean ====
section
/-! DEFINITION. The serial output sequencer: COMMIT (41_commit R110), the micro-sequences CommitSeq (41_commit R111), MresetSeq
(42_oe_mr_status R134) and InitSeq (70_reset R191), and the controller's step (R112, with the failures of R175 and
R176). -/

namespace Sys2Proof.Machine

/-- `COMMIT` (R110, R112): accepted, no micro-operation performed in the accepting step. -/
def execCommit (s : State) : Host.Outcome State Fault Refusal :=
  s.accept fun s => s.startSequence .commit

/-- One micro-operation: a `Drive` of `line`, possibly with a state action named in the sequence's own rule
(R112): the test of `ctrlAvail` (R191, `k = 0`), the bank zeroed before the write (R191, `k = c0`) or after it
(R134, `k = 0`). -/
structure MicroOp where
  line : Line
  high : Bool
  testsCtrl : Bool := false
  zeroesBefore : Bool := false
  zeroesAfter : Bool := false
  deriving DecidableEq, Repr

/-- `Drive(x, L)`. -/
def driveLow (x : Line) : MicroOp where
  line := x
  high := false

/-- `Drive(x, H)`. -/
def driveHigh (x : Line) : MicroOp where
  line := x
  high := true

/-- `Drive(DS, lvl(b))`. -/
def driveData (b : Bool) : MicroOp where
  line := .ds
  high := b

/-- The bit sent by group `g` of a commit: `idx = 8*N - 1 - g` (R111, R52). -/
def sentIndex (n g : Nat) : Nat := 8 * n - 1 - g

/-- `LC = 24*N + 2` (R111). -/
def commitLen (n : Nat) : Nat := 24 * n + 2

/-- `LM = 24*N + 4` (R134). -/
def mresetLen (n : Nat) : Nat := 24 * n + 4

/-- `c0 = 3 + e + m` (R191). -/
def initPrefixLen (cfg : Cfg) : Nat := 3 + cfg.oeBound.toNat + cfg.mrBound.toNat

/-- `LI = c0 + 24*N + 2` (R191). -/
def initLen (cfg : Cfg) : Nat := initPrefixLen cfg + 24 * cfg.n + 2

/-- Micro-operation `k` of CommitSeq, on the bank as it is when the micro-operation is performed (R111). -/
def commitOp (n : Nat) (bank : Memory) (k : Nat) : Option MicroOp :=
  if k = 0 then some (driveLow .stcp)
  else if k ≤ 24 * n then
    match (k - 1) % 3 with
    | 0 => some (driveLow .shcp)
    | 1 => some (driveData (bank.bitRead (sentIndex n ((k - 1) / 3))))
    | _ => some (driveHigh .shcp)
  else if k = 24 * n + 1 then some (driveHigh .stcp)
  else none

/-- Micro-operation `k` of MresetSeq; the sequence exists only where `MR` is bound (R134). -/
def mresetOp (cfg : Cfg) (bank : Memory) (k : Nat) : Option MicroOp :=
  if cfg.mrBound then
    if k = 0 then some { driveLow .mr with zeroesAfter := true }
    else if k ≤ 24 * cfg.n + 2 then commitOp cfg.n bank (k - 1)
    else if k = 24 * cfg.n + 3 then some (driveHigh .mr)
    else none
  else none

/-- The optional lines' first writes, in the order OE, MR (R191, R194). -/
def initOptional (cfg : Cfg) : List Line :=
  (if cfg.oeBound then [.oe] else []) ++ (if cfg.mrBound then [.mr] else [])

/-- Micro-operation `k` of InitSeq (R191). -/
def initOp (cfg : Cfg) (bank : Memory) (k : Nat) : Option MicroOp :=
  if k = 0 then some { driveLow .ds with testsCtrl := true }
  else if k = 1 then some (driveLow .stcp)
  else if k = 2 then some (driveLow .shcp)
  else if k < initPrefixLen cfg then (initOptional cfg)[k - 3]?.map driveHigh
  else if k = initPrefixLen cfg then (commitOp cfg.n bank 0).map fun op => { op with zeroesBefore := true }
  else commitOp cfg.n bank (k - initPrefixLen cfg)

/-- The length of the running sequence (R28, R112). -/
def State.seqLen (s : State) : Nat :=
  match s.cur with
  | .none => 0
  | .init => initLen s.cfg
  | .commit => commitLen s.cfg.n
  | .mreset => mresetLen s.cfg.n

/-- Micro-operation number `upc` of the sequence named by `cur` (R28). -/
def State.microOp (s : State) : Option MicroOp :=
  match s.cur with
  | .none => none
  | .init => initOp s.cfg s.bits s.upc
  | .commit => commitOp s.cfg.n s.bits s.upc
  | .mreset => mresetOp s.cfg s.bits s.upc

/-- The word of the command whose micro-sequence is running; construction answers no command (R112). -/
def Cur.command : Cur → Option Word
  | .none => Option.none
  | .init => Option.none
  | .commit => some (encode .commit)
  | .mreset => some (encode .mreset)

/-- What performing a micro-operation comes to. -/
inductive MicroResult where
  | done (s : State)
  | pinFault (s : State)
  | noController (s : State)
  deriving DecidableEq, Repr

/-- The state action a micro-operation has before its write. -/
def State.before (s : State) (op : MicroOp) : State := if op.zeroesBefore then s.zeroBank else s

/-- The state action a micro-operation has after its write, when the write succeeds (R176). -/
def State.after (s : State) (op : MicroOp) : State := if op.zeroesAfter then s.zeroBank else s

/-- Perform one micro-operation (R112, R134, R191, R175). -/
def State.perform (s : State) (op : MicroOp) : MicroResult :=
  if op.testsCtrl && !s.cfg.ctrlAvail then .noController s
  else
    match (s.before op).drive op.line op.high with
    | .done t => .done (t.after op)
    | .failed t => .pinFault t

/-- The sequence has ended: the response of the command if there is one, then `IDLE` (R112). -/
def State.finish (s : State) : State :=
  match s.cur.command with
  | some w => (s.respond w .ok 0).toIdle
  | none => s.toIdle

/-- `upc <- upc + 1`, and the end of the sequence when `upc` reaches its length (R112). -/
def State.advance (s : State) : State :=
  if s.upc + 1 = s.seqLen then State.finish { s with upc := s.upc + 1 }
  else { s with upc := s.upc + 1 }

/-- A line write failed (R176): construction fails; a command is answered `ERR_PIN` and abandoned. -/
def State.abandon (s : State) : State :=
  if s.mode = .init then s.toFailed
  else
    match s.cur.command with
    | some w => s.raise .pinFault w
    | none => s.toIdle

/-- The controller's step, enabled in `BUSY` and `INIT` (R112). -/
def State.controllerStep (s : State) : Host.Outcome State Fault Refusal :=
  match s.microOp with
  | none => .fault .noMicroOp
  | some op =>
    match s.perform op with
    | .done t => .next t.advance
    | .pinFault t => .next t.abandon
    | .noController t => .next t.toFailed

end Sys2Proof.Machine
end

