-- ==== Sys2Proof/Machine/Dispatch.lean ====
section
/-! DEFINITION. The dispatch: one arm per constructor of Instr, each one call of that command's meaning. -/

namespace Sys2Proof.Machine

/-- Execute one command: what its acceptance does (30_encoding R80, 60_exceptions R178). -/
def exec (i : Instr) (s : State) : Host.Outcome State Fault Refusal :=
  match i with
  | .setbit idx v => Sys2Proof.Machine.execSetbit idx v s
  | .setall v => Sys2Proof.Machine.execSetall v s
  | .getbit idx => Sys2Proof.Machine.execGetbit idx s
  | .rdbyte reg => Sys2Proof.Machine.execRdbyte reg s
  | .commit => Sys2Proof.Machine.execCommit s
  | .setoe v => Sys2Proof.Machine.execSetoe v s
  | .mreset => Sys2Proof.Machine.execMreset s
  | .status => Sys2Proof.Machine.execStatus s

end Sys2Proof.Machine
end

