-- ==== Sys2Proof/Machine/Run.lean ====
section
/-! DEFINITION. What one step of the machine does: the host's move and the block's part in it (00_scope R7,
10_state R27, R32, 41_commit R112, 70_reset R190). -/

namespace Sys2Proof.Machine

/-- The block takes the word `w` off the command port in `IDLE`: decode first, then execute; a word that is no
command is answered `ERR_ILLEGAL` (R80, R171). -/
def acceptWord (w : Word) (s : State) : Host.Outcome State Fault Refusal :=
  match decodeWord w with
  | .ok i => exec i s
  | .error _ => .next (s.raise .illegal w)

/-- What the block does in a step without reset: one micro-operation in `INIT` and `BUSY`, one command in `IDLE`
if the host presents one, nothing otherwise (R27, R112, R185). -/
def State.run (s : State) : Host.Outcome State Fault Refusal :=
  match s.mode with
  | .init => s.hostWaits.controllerStep
  | .busy => s.hostWaits.controllerStep
  | .idle =>
    match s.presented with
    | some w => acceptWord w s.popHost
    | none => .next s.hostWaits
  | .failed => .next s.hostWaits

/-- One step. A configuration that is not well formed has no behaviour (R6); reset is dominant (R190). -/
def State.cycle (s : State) : Host.Outcome State Fault Refusal :=
  if s.cfg.wf then
    match s.host with
    | .reset avail :: _ => .next (s.popHost.assertRst avail)
    | _ => s.clearRsp.run
  else .refused .illFormedConfig

end Sys2Proof.Machine
end

