-- ==== Sys2Proof/Machine/Step.lean ====
section
/-! DEFINITION. The step of the machine, and how a command comes to be the next one. -/

namespace Sys2Proof.Machine

/-- One step of the machine. -/
def step (s : State) : Host.Outcome State Fault Refusal := s.cycle

/-- The word `w` (its low `nbits` bits) is the host's next command and the block is in `IDLE`, so that the very
next step decodes and runs it (log entry 7: there is no stored program to fetch from, R61). -/
def State.withFetchWord (s : State) (nbits w : Nat) : State :=
  { s with
    mode := .idle
    cur := .none
    upc := 0
    host := .issue (BitVec.ofNat 16 (w % 2 ^ nbits)) :: s.host }

end Sys2Proof.Machine
end

