-- ==== Sys2Proof/Machine/Assembler.lean ====
section
/-! DEFINITION. The host's side of a command: the text form of 30_encoding R77 with the pseudo-instructions of R78,
and how the document's operations are performed (R79). Text is a list of characters. -/

namespace Sys2Proof.Machine

/-- A line of assembler text: a command, nothing (blank or a comment), or not a line of the language. -/
inductive AsmLine where
  | command (i : Instr)
  | blank
  | error
  deriving DecidableEq, Repr

/-- White space inside a line: space and tab. DESIGN CHOICE: R77 shows spaces in its examples and says nothing of
white space (log entry 16). -/
def asmSpace (c : Char) : Bool := c == ' ' || c == '\t'

/-- White space at both ends is dropped (log entry 16). -/
def asmTrim (t : List Char) : List Char := ((t.dropWhile asmSpace).reverse.dropWhile asmSpace).reverse

/-- The text before a comment: a `;` starts one (R77). -/
def asmUncomment (t : List Char) : List Char := t.takeWhile (fun c => c != ';')

/-- The pieces between commas. -/
def asmCommas : List Char → List (List Char)
  | [] => [[]]
  | c :: t =>
    match asmCommas t with
    | [] => [[]]
    | p :: ps => if c == ',' then [] :: p :: ps else (c :: p) :: ps

/-- The value of a digit in the given base; hexadecimal digits in either case (DESIGN CHOICE, log entry 16). -/
def asmDigit (base : Nat) (c : Char) : Option Nat :=
  let v :=
    if '0' ≤ c ∧ c ≤ '9' then c.toNat - '0'.toNat
    else if 'a' ≤ c ∧ c ≤ 'f' then c.toNat - 'a'.toNat + 10
    else if 'A' ≤ c ∧ c ≤ 'F' then c.toNat - 'A'.toNat + 10
    else base
  if v < base then some v else none

/-- The digits of a natural number, most significant first; at least one. -/
def asmDigits (base : Nat) (t : List Char) : Option Nat :=
  if t.isEmpty then none
  else t.foldl (fun acc c => acc.bind (fun n => (asmDigit base c).map (fun d => n * base + d))) (some 0)

/-- A decimal or `0x`-prefixed hexadecimal natural (R77). -/
def asmNat : List Char → Option Nat
  | '0' :: 'x' :: t => asmDigits 16 t
  | t => asmDigits 10 t

/-- `v` is `0` or `1` (R77). -/
def asmBool (t : List Char) : Option Bool :=
  if t = ['0'] then some false else if t = ['1'] then some true else none

/-- The command of a mnemonic with its operands in the order of R73, or a pseudo-instruction (R78). -/
def asmCommand (mnemonic : List Char) (operands : List (List Char)) : Option Instr :=
  match mnemonic, operands with
  | ['S', 'E', 'T', 'B', 'I', 'T'], [k, v] => (asmNat k).bind fun k => (asmBool v).map fun v => .setbit k v
  | ['S', 'E', 'T', 'A', 'L', 'L'], [v] => (asmBool v).map fun v => .setall v
  | ['G', 'E', 'T', 'B', 'I', 'T'], [k] => (asmNat k).map fun k => .getbit k
  | ['R', 'D', 'B', 'Y', 'T', 'E'], [k] => (asmNat k).map fun k => .rdbyte k
  | ['C', 'O', 'M', 'M', 'I', 'T'], [] => some .commit
  | ['S', 'E', 'T', 'O', 'E'], [v] => (asmBool v).map fun v => .setoe v
  | ['M', 'R', 'E', 'S', 'E', 'T'], [] => some .mreset
  | ['S', 'T', 'A', 'T', 'U', 'S'], [] => some .status
  | ['R', 'E', 'S', 'E', 'T', 'P', 'I', 'N', 'S'], [] => some Pseudo.resetpins.expand
  | ['C', 'L', 'R', 'A', 'L', 'L'], [] => some Pseudo.clrall.expand
  | ['O', 'E', 'O', 'N'], [] => some Pseudo.oeon.expand
  | ['O', 'E', 'O', 'F', 'F'], [] => some Pseudo.oeoff.expand
  | ['S', 'E', 'T', 'P', 'I', 'N'], [k] => (asmNat k).map fun k => (Pseudo.setpin k).expand
  | ['C', 'L', 'R', 'P', 'I', 'N'], [k] => (asmNat k).map fun k => (Pseudo.clrpin k).expand
  | _, _ => none

/-- One line of text (R77): a command whose operands fit their fields. White space may stand at both ends, must stand
between mnemonic and operands, and may stand around a comma; a blank or comment line is no command (DESIGN CHOICE,
log entry 16). -/
def asmLine (t : List Char) : AsmLine :=
  let line := asmTrim (asmUncomment t)
  if line.isEmpty then .blank
  else
    let rest := asmTrim (line.dropWhile (fun c => !asmSpace c))
    let operands := if rest.isEmpty then [] else (asmCommas rest).map asmTrim
    match asmCommand (line.takeWhile (fun c => !asmSpace c)) operands with
    | some i => if i.WellFormed then .command i else .error
    | none => .error

/-- The text form of a command (R77), indices in decimal. -/
def instrText : Instr → String
  | .setbit idx v => "SETBIT " ++ toString idx ++ ", " ++ (if v then "1" else "0")
  | .setall v => "SETALL " ++ (if v then "1" else "0")
  | .getbit idx => "GETBIT " ++ toString idx
  | .rdbyte reg => "RDBYTE " ++ toString reg
  | .commit => "COMMIT"
  | .setoe v => "SETOE " ++ (if v then "1" else "0")
  | .mreset => "MRESET"
  | .status => "STATUS"

/-- The operations the document names (R79). -/
inductive SourceOp where
  /-- With the pins, the register count and the other parameters of 00_scope R5. -/
  | construct (cfg : Cfg)
  | setBit (index : Nat) (value : Bool)
  | setAll (value : Bool)
  | byteAt (registerIndex : Nat)
  | readBit (index : Nat)
  | commit
  | writeOutputEnabled (value : Bool)
  | readOutputEnabled
  | readBinding
  | masterReset
  | resetPins
  | destroy (ctrlAvail : Bool)
  deriving DecidableEq, Repr

/-- The command an operation is, where it is one (R79). -/
def SourceOp.command : SourceOp → Option Instr
  | .construct _ => none
  | .setBit index value => some (.setbit index value)
  | .setAll value => some (.setall value)
  | .byteAt registerIndex => some (.rdbyte registerIndex)
  | .readBit index => some (.getbit index)
  | .commit => some .commit
  | .writeOutputEnabled value => some (.setoe value)
  | .readOutputEnabled => some .status
  | .readBinding => some .status
  | .masterReset => some .mreset
  | .resetPins => some (.setall false)
  | .destroy _ => none

/-- The host's move that issues a command. An index that does not fit the 11-bit field `arg` has no command word
(R71, R72), so there is no move (log entry 15). -/
def issueMove (i : Instr) : Option HostMove := if i.WellFormed then some (.issue (encode i)) else none

/-- What a host does on the ports for an operation (R79): one command; for a construction a pulse of `rst` and the
wait for `cmd_ready`, as long as construction lasts (70_reset R191); for the end of the driver `rst`. -/
def SourceOp.hostMoves (o : SourceOp) : Option (List HostMove) :=
  match o with
  | .construct cfg => some (.reset cfg.ctrlAvail :: List.replicate (initLen cfg) .wait)
  | .destroy avail => some [.reset avail]
  | _ => (o.command.bind issueMove).map fun m => [m]

/-- The configuration is set (R5, R79): a block of these parameters before its `rst`. Chips of the same number are
the ones that were there; others hold what they power up with (45_chain R150; log entry 15). -/
def State.configure (s : State) (cfg : Cfg) : State :=
  { s with cfg := cfg, chain := if cfg.n = s.cfg.n then s.chain else Chain.powerUp cfg.n }

/-- An operation of the document performed on this block (R79): the host makes its moves after those it has left;
a construction sets the configuration and starts afresh. None where the operation has no command word. -/
def SourceOp.perform (o : SourceOp) (s : State) : Option State :=
  match o with
  | .construct cfg => o.hostMoves.map fun moves => { s.configure cfg with host := moves }
  | _ => o.hostMoves.map fun moves => { s with host := s.host ++ moves }

/-- What STATUS's data says of `outputEnabled`: `OE_EN` (R79, 10_state R30). -/
def statusOeEn (data : Word) : Bool := data.getLsbD 0

/-- `OE_BOUND` (R79, R30). -/
def statusOeBound (data : Word) : Bool := data.getLsbD 1

/-- `MR_BOUND` (R79, R30). -/
def statusMrBound (data : Word) : Bool := data.getLsbD 2

end Sys2Proof.Machine
end

