-- ==== Sys2Proof/Machine/Ports.lean ====
section
/-! DEFINITION. The output ports of the block as functions of the state (10_state R32). -/

namespace Sys2Proof.Machine

/-- `cmd_ready`: 1 iff `mode = IDLE`. -/
def State.cmdReady (s : State) : Bool := decide (s.mode = .idle)

/-- `busy`: 1 iff `mode` is `INIT` or `BUSY`. -/
def State.busyPort (s : State) : Bool := decide (s.mode = .init) || decide (s.mode = .busy)

/-- `init_done`: 1 iff `mode` is `IDLE` or `BUSY`. -/
def State.initDone (s : State) : Bool := decide (s.mode = .idle) || decide (s.mode = .busy)

/-- `init_fail`: 1 iff `mode = FAILED`. -/
def State.initFail (s : State) : Bool := decide (s.mode = .failed)

/-- `rsp_valid`. -/
def State.rspValid (s : State) : Bool := s.rsp.isSome

/-- `rsp_code`, valid when `rsp_valid`. -/
def State.rspCode (s : State) : Option (BitVec 3) := s.rsp.map (fun r => r.code.bits)

/-- `rsp_data`, valid when `rsp_valid`. -/
def State.rspData (s : State) : Option Word := s.rsp.map Response.data

/-- `ds`, `shcp`, `stcp`, `oe_n`, `mr_n`: the five lines carry `lvl[X]`. -/
def State.linePort (s : State) (x : Line) : Level := s.lines.get x

/-- The role of a line as the sum type of R25: the three mandatory roles are always bound. -/
def roleOf (c : Cfg) : Line → Role
  | .ds => .bound c.dsPin
  | .shcp => .bound c.shcpPin
  | .stcp => .bound c.stcpPin
  | .oe => Role.ofOptionalPin c.oePin
  | .mr => Role.ofOptionalPin c.mrPin

end Sys2Proof.Machine
end

