-- ==== Sys2Proof/Safety.lean ====
section
/-! DEFINITION. What claims are stated in: coherence of bank and chips (20_memory R58), the line writes of a whole
COMMIT, MRESET and construction as the spec's nested loops give them (41_commit R110, 42_oe_mr_status R133,
70_reset R191), hosts that do not reset, and the invariant of every state a run can reach. -/

namespace Sys2Proof.Machine

/-- Bank and chips are coherent: storage stage bit `k` equals bank bit `k` for every `k` (R58). -/
abbrev State.coherent (s : State) : Prop :=
  s.chain.q.length = s.cfg.nbits ∧ ∀ k < s.cfg.nbits, s.chain.q.getD k false = s.bits.bitRead k

/-- The pattern the chips hold when they agree with the bank (R58): stage `k` holds bank bit `k`. -/
def bankPattern (n : Nat) (bank : Memory) : List Bool := (List.range (8 * n)).map bank.bitRead

/-- `pinValue = byteAt(register) & (1 << bitPosition)` is non-zero (R110). -/
def pinValue (bank : Memory) (r b : Nat) : Bool := decide (bank.read r &&& (1#8 <<< b) ≠ 0)

/-- The writes for one bit (R110 2a): Shift-Clock Low, Data, Shift-Clock High. -/
def bitWrites (d : Bool) : List Event :=
  [.w .shcp .l, .w .ds (Level.ofBool d), .w .shcp .h]

/-- The writes of COMMIT, in the nested loops of R110: registers from the last index down to 0, within each the
bits from 7 down to 0. -/
def commitWrites (n : Nat) (bank : Memory) : List Event :=
  [.w .stcp .l] ++
    (List.range n).reverse.flatMap (fun r =>
      (List.range 8).reverse.flatMap (fun b => bitWrites (pinValue bank r b))) ++
    [.w .stcp .h]

/-- The line write a micro-operation makes when it succeeds (R12). -/
def MicroOp.event (op : MicroOp) : Event := .w op.line (Level.ofBool op.high)

/-- The line writes of the machine's own CommitSeq, micro-operations `0` to `24*N + 1` in order (R111). -/
def commitEvents (n : Nat) (bank : Memory) : List Event :=
  (List.range (24 * n + 2)).filterMap fun k => (commitOp n bank k).map MicroOp.event

/-- The writes of MRESET on a bound line (R133): the commit inside it sends a zeroed bank. -/
def mresetWrites (n : Nat) : List Event := [.w .mr .l] ++ commitWrites n [] ++ [.w .mr .h]

/-- The writes of a successful construction (R191). -/
def initWrites (cfg : Cfg) : List Event :=
  [.w .ds .l, .w .stcp .l, .w .shcp .l] ++
    (if cfg.oeBound then [.w .oe .h] else []) ++
    (if cfg.mrBound then [.w .mr .h] else []) ++
    commitWrites cfg.n []

/-- The host asserts `rst` in this step. -/
def State.rstAsserted (s : State) : Bool :=
  match s.host with
  | .reset _ :: _ => true
  | _ => false

/-- From `s` to `t` exactly one response was presented, and logged (R76, R8). -/
abbrev Answers (s t : State) (w : Word) (code : Code) (data : Word) : Prop :=
  t.rsp = some ⟨w, code, data⟩ ∧ t.responses = s.responses ++ [⟨w, code, data⟩]

/-- From `s` to `t` the block wrote the line `x` once, with success: one event, that line set and no other, the
chips' reaction; configuration, flags and cached state as they were (R12, R112). -/
abbrev WritesLine (s t : State) (x : Line) (high : Bool) : Prop :=
  t.trace = s.trace ++ [.w x (Level.ofBool high)] ∧ t.lines.get x = Level.ofBool high ∧
    (∀ y, y ≠ x → t.lines.get y = s.lines.get y) ∧ t.chain = (s.setLine x (Level.ofBool high)).chain ∧
    t.cfg = s.cfg ∧ t.outputEnabled = s.outputEnabled ∧ t.perr = s.perr ∧ t.pf = s.pf

/-- None of the next `k` line writes fails (R176). -/
abbrev State.writesSucceed (s : State) (k : Nat) : Prop :=
  s.cfg.pinFault = true → ∀ b ∈ s.pinErr.take k, b = false

/-- The answers the oracle has left after `k` writes; without `PINFAULT` it is not asked (R176). -/
def State.pinErrAfter (s : State) (k : Nat) : List Bool :=
  if s.cfg.pinFault then s.pinErr.drop k else s.pinErr

/-- The host's next move puts the word `w` on the command port (R32). -/
abbrev State.presents (s : State) (w : Word) (rest : List HostMove) : Prop :=
  s.host = .present w :: rest ∨ s.host = .issue w :: rest

/-- The host does not assert `rst` in the moves it has left. -/
def State.noReset (s : State) : Bool :=
  s.host.all (fun m => match m with
    | .wait => true
    | .present _ => true
    | .issue _ => true
    | .reset _ => false)

/-- The sequencer position fits the mode (R27, R28). -/
abbrev State.positionFits (s : State) : Prop :=
  match s.mode with
  | .init => s.cur = .init ∧ s.upc < initLen s.cfg
  | .busy =>
    (s.cur = .commit ∧ s.upc < commitLen s.cfg.n) ∨
      (s.cur = .mreset ∧ s.cfg.mrBound = true ∧ s.upc < mresetLen s.cfg.n)
  | .idle => s.cur = .none ∧ s.upc = 0
  | .failed => s.cur = .none ∧ s.upc = 0

/-- Which lines have been driven, and so are no longer `Z` (R24, R191). -/
abbrev State.linesDriven (s : State) : Prop :=
  match s.mode with
  | .init =>
    (0 < s.upc → s.lines.ds ≠ .z) ∧ (1 < s.upc → s.lines.stcp ≠ .z) ∧ (2 < s.upc → s.lines.shcp ≠ .z) ∧
      (s.cfg.oeBound = true → 3 < s.upc → s.lines.oe ≠ .z) ∧
      (s.cfg.mrBound = true → 3 + s.cfg.oeBound.toNat < s.upc → s.lines.mr ≠ .z)
  | .failed => True
  | .idle | .busy =>
    s.lines.ds ≠ .z ∧ s.lines.stcp ≠ .z ∧ s.lines.shcp ≠ .z ∧
      (s.cfg.oeBound = true → s.lines.oe ≠ .z) ∧ (s.cfg.mrBound = true → s.lines.mr ≠ .z)

/-- The Output-Enable line mirrors the cached state (R26: Low iff `outputEnabled`), on a bound line and as long as
no line write has failed; during construction it is released, then High (R191, R33). -/
abbrev State.oeLineFits (s : State) : Prop :=
  match s.mode with
  | .init => s.outputEnabled = false ∧ s.lines.oe = if s.upc ≤ 3 then .z else .h
  | .failed => True
  | .idle | .busy => s.lines.oe = if s.outputEnabled then .l else .h

/-- The Master-Clear line, on a bound line and as long as no line write has failed: Low from the first to before
the last micro-operation of MRESET, High otherwise; during construction released, then High (R134, R191). -/
abbrev State.mrLineFits (s : State) : Prop :=
  match s.mode with
  | .init => s.lines.mr = if s.upc ≤ 3 + s.cfg.oeBound.toNat then .z else .h
  | .idle => s.lines.mr = .h
  | .busy => s.lines.mr = if s.cur = .mreset ∧ 0 < s.upc then .l else .h
  | .failed => True

/-- The invariant of the states a run can reach. -/
structure State.Inv (s : State) : Prop where
  /-- R6. -/
  cfgWf : s.cfg.wf = true
  /-- The bank keeps its canonical form. -/
  bankWf : s.bits.wf
  /-- R21: no register beyond `N`. -/
  bankWithin : s.bits.within s.cfg.n
  /-- R150: `8*N` stages. -/
  chainLength : s.chain.sh.length = s.cfg.nbits ∧ s.chain.q.length = s.cfg.nbits
  /-- R27, R28. -/
  position : s.positionFits
  /-- R26, R24: an unbound `OE` is enabled and never driven. -/
  oeUnbound : s.cfg.oeBound = false → s.outputEnabled = true ∧ s.lines.oe = .z
  /-- R24: an unbound `MR` is never driven. -/
  mrUnbound : s.cfg.mrBound = false → s.lines.mr = .z
  /-- R24: a line once driven is never `Z` again. -/
  driven : s.linesDriven
  /-- R26. -/
  oeLine : s.cfg.oeBound = true → s.pf = false → s.oeLineFits
  /-- R134, R191. -/
  mrLine : s.cfg.mrBound = true → s.pf = false → s.mrLineFits
  /-- R176: without `PINFAULT` no write fails. -/
  noPinFault : s.cfg.pinFault = false → s.pf = false
  /-- R33, R190: until construction ends the bank is zero and no command has been answered. -/
  fresh : s.mode = .init →
    s.bits = [] ∧ s.perr = false ∧ s.pf = false ∧ s.outputEnabled = !s.cfg.oeBound ∧ s.responses = []
  /-- R133: from the first micro-operation of MRESET on the bank is zero. -/
  bankCleared : s.cur = .mreset → 0 < s.upc → s.bits = []
  /-- R154: while `eff(MR) = L` the shift stage is zero. -/
  masterClear : eff s.cfg s.lines .mr = .l → ∀ b ∈ s.chain.sh, b = false

end Sys2Proof.Machine
end

