-- ==== Sys2Proof/Certificates/Slice0/Obligations.lean ====
section
/-! DEFINITION. The statements for the provers. Each docstring names the rules of spec/ it formalises. -/

open Sys2Proof Sys2Proof.Machine

/-! Encoding (30_encoding). -/

/-- R71, R73, R80: decoding the word of a well-formed command gives the command back, with every operand. -/
def Obligations.DecodeEncodeRoundTrip : Prop :=
  ∀ i : Instr, i.WellFormed = true → decodeWord (encode i) = .ok i

/-- R80: a word that decodes is the word of exactly that command, which is well formed. -/
def Obligations.EncodeDecodeRoundTrip : Prop :=
  ∀ (w : Word) (i : Instr), decodeWord w = .ok i → i.WellFormed = true ∧ encode i = w

/-- R71: `word = (op << 12) | (v << 11) | arg`. -/
def Obligations.EncodeIsFormatC : Prop :=
  ∀ i : Instr, i.WellFormed = true →
    encode i =
      (i.opcode.setWidth 16 <<< 12) ||| ((BitVec.ofBool i.vOperand).setWidth 16 <<< 11) |||
        BitVec.ofNat 16 i.argOperand

/-- R73: a word is a given command exactly when it matches that command's row, with the operands in their fields;
a word that matches no row is illegal. -/
def Obligations.OpcodeMap : Prop :=
  ∀ w : Word,
    (∀ idx v, decodeWord w = .ok (.setbit idx v) ↔
      w &&& 0xF000 = 0x1000 ∧ v = w.getLsbD 11 ∧ idx = (w &&& 0x07FF).toNat) ∧
    (∀ v, decodeWord w = .ok (.setall v) ↔ w &&& 0xF7FF = 0x2000 ∧ v = w.getLsbD 11) ∧
    (∀ idx, decodeWord w = .ok (.getbit idx) ↔ w &&& 0xF800 = 0x3000 ∧ idx = (w &&& 0x07FF).toNat) ∧
    (∀ reg, decodeWord w = .ok (.rdbyte reg) ↔ w &&& 0xF800 = 0x4000 ∧ reg = (w &&& 0x07FF).toNat) ∧
    (decodeWord w = .ok .commit ↔ w &&& 0xFFFF = 0x5000) ∧
    (∀ v, decodeWord w = .ok (.setoe v) ↔ w &&& 0xF7FF = 0x6000 ∧ v = w.getLsbD 11) ∧
    (decodeWord w = .ok .mreset ↔ w &&& 0xFFFF = 0x7000) ∧
    (decodeWord w = .ok .status ↔ w &&& 0xFFFF = 0x8000) ∧
    ((∃ e, decodeWord w = .error e) ↔
      w &&& 0xF000 ≠ 0x1000 ∧ w &&& 0xF7FF ≠ 0x2000 ∧ w &&& 0xF800 ≠ 0x3000 ∧ w &&& 0xF800 ≠ 0x4000 ∧
        w &&& 0xFFFF ≠ 0x5000 ∧ w &&& 0xF7FF ≠ 0x6000 ∧ w &&& 0xFFFF ≠ 0x7000 ∧ w &&& 0xFFFF ≠ 0x8000)

/-- R74: an assigned opcode with a non-zero reserved field is illegal. -/
def Obligations.ReservedFieldsRejected : Prop :=
  ∀ w : Word,
    ((fieldOp w = 0x2 ∨ fieldOp w = 0x6) ∧ fieldArg w ≠ 0) ∨
    ((fieldOp w = 0x3 ∨ fieldOp w = 0x4) ∧ fieldV w = true) ∨
    ((fieldOp w = 0x5 ∨ fieldOp w = 0x7 ∨ fieldOp w = 0x8) ∧ (fieldV w = true ∨ fieldArg w ≠ 0)) →
    decodeWord w = .error (.reservedField (fieldOp w))

/-- R75: opcodes 0x0 and 0x9 to 0xF are unassigned. -/
def Obligations.UnassignedOpcodesRejected : Prop :=
  ∀ w : Word, fieldOp w = 0x0 ∨ 9 ≤ (fieldOp w).toNat →
    decodeWord w = .error (.unassignedOpcode (fieldOp w))

/-- R78: each pseudo-instruction is an exact alias of one command word. -/
def Obligations.PseudoInstructionWords : Prop :=
  encode Pseudo.resetpins.expand = 0x2000 ∧ encode Pseudo.clrall.expand = 0x2000 ∧
  encode Pseudo.oeon.expand = 0x6800 ∧ encode Pseudo.oeoff.expand = 0x6000 ∧
  ∀ idx < 2048, encode (Pseudo.setpin idx).expand = 0x1800 ||| BitVec.ofNat 16 idx ∧
    encode (Pseudo.clrpin idx).expand = 0x1000 ||| BitVec.ofNat 16 idx

/-- R77 and 95_test_vectors 2.1: some words the spec writes out. -/
def Obligations.SpecWordsDecode : Prop :=
  decodeWord 0x1800 = .ok (.setbit 0 true) ∧ decodeWord 0x1009 = .ok (.setbit 9 false) ∧
  decodeWord 0x1FFF = .ok (.setbit 2047 true) ∧ decodeWord 0x2800 = .ok (.setall true) ∧
  decodeWord 0x301F = .ok (.getbit 31) ∧ decodeWord 0x4003 = .ok (.rdbyte 3) ∧
  decodeWord 0x5000 = .ok .commit ∧ decodeWord 0x6800 = .ok (.setoe true) ∧
  decodeWord 0x6000 = .ok (.setoe false) ∧ decodeWord 0x7000 = .ok .mreset ∧
  decodeWord 0x8000 = .ok .status ∧ decodeWord 0x3FFF = .error (.reservedField 0x3) ∧
  decodeWord 0x0000 = .error (.unassignedOpcode 0x0)

/-- R79: each operation of the document on this block. One that is a command puts the word of exactly that command on
the port after the host's earlier moves; an index without a command word gives none (log entry 15, DEDUCED). A
construction sets the configuration and its moves end with `cmd_ready` (with the capability, when no write fails). -/
def Obligations.SourceOperationsPerformed : Prop :=
  (∀ index v, (SourceOp.setBit index v).command = some (.setbit index v)) ∧
  (∀ v, (SourceOp.setAll v).command = some (.setall v)) ∧
  (∀ reg, (SourceOp.byteAt reg).command = some (.rdbyte reg)) ∧
  (∀ index, (SourceOp.readBit index).command = some (.getbit index)) ∧
  SourceOp.commit.command = some .commit ∧ (∀ v, (SourceOp.writeOutputEnabled v).command = some (.setoe v)) ∧
  SourceOp.readOutputEnabled.command = some .status ∧ SourceOp.readBinding.command = some .status ∧
  SourceOp.masterReset.command = some .mreset ∧ SourceOp.resetPins.command = some (.setall false) ∧
  (∀ (o : SourceOp) (i : Instr) (s : State), o.command = some i →
    (i.WellFormed = true → ∃ w, decodeWord w = .ok i ∧ o.perform s = some { s with host := s.host ++ [.issue w] }) ∧
    (i.WellFormed = false → o.perform s = none)) ∧
  (∀ (avail : Bool) (s : State), (SourceOp.destroy avail).perform s = some { s with host := s.host ++ [.reset avail] }) ∧
  (∀ (cfg : Cfg) (s : State), cfg.wf = true → cfg.ctrlAvail = true → s.chain.sh.length = s.cfg.nbits →
    (cfg.pinFault = true → ∀ b ∈ s.pinErr.take (initLen cfg), b = false) →
    ∃ t u, (SourceOp.construct cfg).perform s = some t ∧ t.cfg = cfg ∧ t.chain.sh.length = cfg.nbits ∧
      t.presented = none ∧ Host.Core.run core (initLen cfg + 1) t = .next u ∧
      u.cfg = cfg ∧ u.cmdReady = true ∧ u.host = [] ∧ u.responses = [])

/-! Steps, acceptance, reset, configuration. -/

/-- R27, R32, R80: in `IDLE` a presented word that decodes is executed in that step; the host has made its move and
no earlier response stays on the port. -/
def Obligations.StepRunsDecodedCommand : Prop :=
  ∀ (s : State) (w : Word) (i : Instr) (rest : List HostMove),
    s.cfg.wf = true → s.mode = .idle → s.presents w rest → decodeWord w = .ok i →
    step s = exec i { s with host := rest, rsp := none }

/-- R171: in `IDLE` a presented word that is no command is answered `ERR_ILLEGAL` and sets `PERR`, nothing else. -/
def Obligations.IllegalWordAnswered : Prop :=
  ∀ (s : State) (w : Word) (e : DecodeError) (rest : List HostMove),
    s.cfg.wf = true → s.mode = .idle → s.presents w rest → decodeWord w = .error e →
    step s = .next { s with
      host := rest
      perr := true
      rsp := some ⟨w, .errIllegal, 0⟩
      responses := s.responses ++ [⟨w, .errIllegal, 0⟩] }

/-- R32, R199: outside `IDLE` a presented command has no effect and is not remembered: the step is that of a host
that presents nothing. A word the host holds (`issue`) stays the host's next move, nothing else. -/
def Obligations.CommandIgnoredUnlessIdle : Prop :=
  ∀ (s : State) (w : Word) (rest : List HostMove), s.mode ≠ .idle →
    step { s with host := .present w :: rest } = step { s with host := .wait :: rest } ∧
    (∀ t, step { s with host := .wait :: rest } = .next t →
      step { s with host := .issue w :: rest } = .next { t with host := .issue w :: rest }) ∧
    (∀ f, step { s with host := .wait :: rest } = .fault f → step { s with host := .issue w :: rest } = .fault f) ∧
    (∀ r, step { s with host := .wait :: rest } = .refused r → step { s with host := .issue w :: rest } = .refused r)

/-- R185: in `IDLE` with no command presented nothing changes. -/
def Obligations.IdleWaits : Prop :=
  ∀ (s : State), s.cfg.wf = true → s.mode = .idle → s.rstAsserted = false → s.presented = none →
    step s = .next { s with host := s.host.tail, rsp := none }

/-- R190, R33: `rst` wins over everything in every mode: the "after `rst`" column, fresh histories, no response,
the chain untouched. The strap's new value is the model's reading of R32 and R185 (log entry 2). -/
def Obligations.ResetIsDominant : Prop :=
  ∀ (s : State) (avail : Bool) (rest : List HostMove),
    s.cfg.wf = true → s.host = .reset avail :: rest →
    step s = .next { s with
      cfg := { s.cfg with ctrlAvail := avail }
      bits := []
      lines := ⟨.z, .z, .z, .z, .z⟩
      outputEnabled := !decide (0 < s.cfg.oePin)
      mode := .init
      cur := .init
      upc := 0
      perr := false
      pf := false
      rsp := none
      trace := []
      responses := []
      host := rest }

/-- R33, the "after `rst`" column, for every configuration; `State.reset` is that of the default configuration,
whose mandatory pins are the model's choice (log entry 1). -/
def Obligations.PowerUpValues : Prop :=
  State.reset = State.powerUp Cfg.default ∧
  ∀ cfg : Cfg,
    let s := State.powerUp cfg
    s.cfg = cfg ∧ (∀ r, s.bits.read r = 0) ∧ (∀ x, s.lines.get x = .z) ∧
      s.outputEnabled = decide (cfg.oePin = 0) ∧ s.mode = .init ∧ s.cur = .init ∧ s.upc = 0 ∧
      s.perr = false ∧ s.pf = false

/-- R6: when a configuration is well formed, and that one which is not has no behaviour. -/
def Obligations.IllFormedConfigRefused : Prop :=
  (∀ c : Cfg, c.wf = true ↔
    1 ≤ c.n ∧ c.n ≤ 256 ∧ c.dsPin ≠ c.stcpPin ∧ c.dsPin ≠ c.shcpPin ∧ c.stcpPin ≠ c.shcpPin ∧
      (0 < c.oePin → c.oePin ≠ c.dsPin ∧ c.oePin ≠ c.stcpPin ∧ c.oePin ≠ c.shcpPin) ∧
      (0 < c.mrPin → c.mrPin ≠ c.dsPin ∧ c.mrPin ≠ c.stcpPin ∧ c.mrPin ≠ c.shcpPin) ∧
      (0 < c.oePin → 0 < c.mrPin → c.oePin ≠ c.mrPin)) ∧
  (∀ s : State, s.cfg.wf = false → step s = .refused .illFormedConfig) ∧
  (∀ (i : Instr) (s : State), s.cfg.wf = false → exec i s = .refused .illFormedConfig)

/-- A command outside `IDLE` changes nothing: R32 says it of a presented command; that `exec` answers the same state
there is the model's own reading (log entry 14, DEDUCED). -/
def Obligations.NoCommandAcceptedUnlessIdle : Prop :=
  ∀ (i : Instr) (s : State), s.cfg.wf = true → s.mode ≠ .idle → exec i s = .next s

/-- R5: the configuration is constant; only a reset may set the strap `ctrl_avail` anew (R32, log entry 2). -/
def Obligations.ConfigurationIsConstant : Prop :=
  ∀ s t : State, step s = .next t →
    t.cfg = s.cfg ∨ ∃ avail rest, s.host = .reset avail :: rest ∧ t.cfg = { s.cfg with ctrlAvail := avail }

/-! The bank family (40_bank_ops). -/

/-- R90: `SETBIT` writes exactly the bit `idx` and answers `OK`; out of range it changes no bit. -/
def Obligations.SetbitWritesOneBit : Prop :=
  ∀ (s : State) (idx : Nat) (v : Bool),
    s.cfg.wf = true → s.mode = .idle → s.bits.wf →
    (idx < 8 * s.cfg.n →
      ∃ t, exec (.setbit idx v) s = .next t ∧
        (∀ k, t.bits.bitRead k = if k = idx then v else s.bits.bitRead k) ∧
        Answers s t (encode (.setbit idx v)) .ok 0 ∧
        t = { s with bits := t.bits, rsp := t.rsp, responses := t.responses }) ∧
    (8 * s.cfg.n ≤ idx →
      ∃ t, exec (.setbit idx v) s = .next t ∧ Answers s t (encode (.setbit idx v)) .errRange 0 ∧
        t = { s with perr := true, rsp := t.rsp, responses := t.responses })

/-- R91: `SETALL` sets every byte to 0xFF or 0x00 in one step and answers `OK`. -/
def Obligations.SetallFillsBank : Prop :=
  ∀ (s : State) (v : Bool), s.cfg.wf = true → s.mode = .idle →
    ∃ t, exec (.setall v) s = .next t ∧
      (∀ r < s.cfg.n, t.bits.read r = if v then 0xFF else 0x00) ∧
      Answers s t (encode (.setall v)) .ok 0 ∧
      t = { s with bits := t.bits, rsp := t.rsp, responses := t.responses }

/-- R91: the bank after `SETALL v` is that of `SETBIT k, v` for every `k` below `8*N`, in any order. -/
def Obligations.SetallIsAllSetbits : Prop :=
  ∀ (s t : State) (v : Bool) (order : List Nat),
    s.cfg.wf = true → s.mode = .idle → s.bits.wf → s.bits.within s.cfg.n →
    order.Perm (List.range (8 * s.cfg.n)) → exec (.setall v) s = .next t →
    ∃ u, order.foldl
        (fun o k => match o with
          | .next x => exec (.setbit k v) x
          | .fault f => .fault f
          | .refused r => .refused r) (.next s : Host.Outcome State Fault Refusal) = .next u ∧
      u.bits = t.bits

/-- R92: `GETBIT` answers the bit, changing nothing; out of range it answers `ERR_RANGE`. -/
def Obligations.GetbitAnswersBit : Prop :=
  ∀ (s : State) (idx : Nat), s.cfg.wf = true → s.mode = .idle →
    (idx < 8 * s.cfg.n →
      ∃ t, exec (.getbit idx) s = .next t ∧
        Answers s t (encode (.getbit idx)) .ok (if (s.bits.read (idx / 8)).getLsbD (idx % 8) then 1 else 0) ∧
        t = { s with rsp := t.rsp, responses := t.responses }) ∧
    (8 * s.cfg.n ≤ idx →
      ∃ t, exec (.getbit idx) s = .next t ∧ Answers s t (encode (.getbit idx)) .errRange 0 ∧
        t = { s with perr := true, rsp := t.rsp, responses := t.responses })

/-- R93: `RDBYTE` answers the byte, changing nothing; out of range it answers `ERR_RANGE`. -/
def Obligations.RdbyteAnswersByte : Prop :=
  ∀ (s : State) (reg : Nat), s.cfg.wf = true → s.mode = .idle →
    (reg < s.cfg.n →
      ∃ t d, exec (.rdbyte reg) s = .next t ∧ Answers s t (encode (.rdbyte reg)) .ok d ∧
        d.toNat = (s.bits.read reg).toNat ∧
        t = { s with rsp := t.rsp, responses := t.responses }) ∧
    (s.cfg.n ≤ reg →
      ∃ t, exec (.rdbyte reg) s = .next t ∧ Answers s t (encode (.rdbyte reg)) .errRange 0 ∧
        t = { s with perr := true, rsp := t.rsp, responses := t.responses })

/-- R95: the four laws of the family; the first in both orders. -/
def Obligations.BankFamilyLaws : Prop :=
  ∀ s : State, s.cfg.wf = true → s.mode = .idle → s.bits.wf →
    (∀ idx < 8 * s.cfg.n, ∃ t u, exec (.setbit idx true) s = .next t ∧ exec (.setbit idx false) t = .next u ∧
      ∀ k, u.bits.bitRead k = if k = idx then false else s.bits.bitRead k) ∧
    (∀ idx < 8 * s.cfg.n, ∃ t u, exec (.setbit idx false) s = .next t ∧ exec (.setbit idx true) t = .next u ∧
      ∀ k, u.bits.bitRead k = if k = idx then true else s.bits.bitRead k) ∧
    (∃ t, exec (.setall true) s = .next t ∧
      (∀ k < 8 * s.cfg.n, ∃ u, exec (.getbit k) t = .next u ∧ Answers t u (encode (.getbit k)) .ok 1) ∧
      ∃ u, exec (.setall true) t = .next u ∧ u.bits = t.bits) ∧
    (∀ k < 8 * s.cfg.n, ∃ t u b d, exec (.getbit k) s = .next t ∧ exec (.rdbyte (k / 8)) s = .next u ∧
      Answers s t (encode (.getbit k)) .ok (if b then 1 else 0) ∧
      Answers s u (encode (.rdbyte (k / 8))) .ok d ∧ b = d.getLsbD (k % 8)) ∧
    (∀ k < 8 * s.cfg.n, ∀ k' < 8 * s.cfg.n, k' ≠ k → ∀ v, ∃ t u u', exec (.setbit k v) s = .next t ∧
      exec (.getbit k') s = .next u ∧ exec (.getbit k') t = .next u' ∧ u.rsp = u'.rsp)

/-- R4, R90 to R93, R136: `SETBIT`, `SETALL`, `GETBIT`, `RDBYTE` and `STATUS` touch no line, no history of line
writes, no mode, no sequencer position, not the cached Output-Enable state and not the chips; the reading ones
change no byte, `SETBIT` no byte but its own; only `PERR` may be set. -/
def Obligations.BankCommandFrame : Prop :=
  ∀ (i : Instr) (s t : State), exec i s = .next t → s.bits.wf →
    (∀ idx v, i = .setbit idx v →
      t = { s with bits := t.bits, perr := t.perr, rsp := t.rsp, responses := t.responses } ∧
      ∀ r, r ≠ idx / 8 → t.bits.read r = s.bits.read r) ∧
    (∀ v, i = .setall v →
      t = { s with bits := t.bits, rsp := t.rsp, responses := t.responses } ∧
      ∀ r, s.bits.within s.cfg.n → s.cfg.n ≤ r → t.bits.read r = s.bits.read r) ∧
    (∀ idx, i = .getbit idx → t = { s with perr := t.perr, rsp := t.rsp, responses := t.responses }) ∧
    (∀ reg, i = .rdbyte reg → t = { s with perr := t.perr, rsp := t.rsp, responses := t.responses }) ∧
    (i = .status → t = { s with rsp := t.rsp, responses := t.responses })

/-! COMMIT and the sequencer (41_commit). -/

/-- R112: accepting COMMIT starts the sequence and performs no micro-operation. -/
def Obligations.CommitAccepted : Prop :=
  ∀ s : State, s.cfg.wf = true → s.mode = .idle →
    exec .commit s = .next { s with mode := .busy, cur := .commit, upc := 0 }

/-- R111: the indexed list CommitSeq is the unrolling of the nested loops of R110, of length `24*N + 2`. -/
def Obligations.CommitSeqUnrollsLoops : Prop :=
  ∀ (n : Nat) (bank : Memory),
    (List.range (24 * n + 2)).map (fun k => (commitOp n bank k).map fun op => Event.w op.line (Level.ofBool op.high)) =
      (commitWrites n bank).map some ∧
    ∀ k, 24 * n + 2 ≤ k → commitOp n bank k = none

/-- R52: the Data writes among CommitSeq's micro-operations send the bank in strictly descending logical index,
`8*N - 1` first. -/
def Obligations.WireOrderDescending : Prop :=
  ∀ (n : Nat) (bank : Memory),
    (commitEvents n bank).filter (fun e => decide (e = .w .ds .l) || decide (e = .w .ds .h)) =
      (List.range (8 * n)).reverse.map (fun idx => Event.w .ds (Level.ofBool (bank.bitRead idx)))

/-- R115: the counts of CommitSeq's writes, the last of them the one rising edge of `STCP`. -/
def Obligations.CommitWriteCounts : Prop :=
  ∀ (n : Nat) (bank : Memory),
    (commitEvents n bank).length = 24 * n + 2 ∧ (commitEvents n bank).getLast? = some (.w .stcp .h) ∧
    (commitEvents n bank).count (.w .stcp .l) = 1 ∧ (commitEvents n bank).count (.w .stcp .h) = 1 ∧
    (commitEvents n bank).count (.w .shcp .l) = 8 * n ∧ (commitEvents n bank).count (.w .shcp .h) = 8 * n ∧
    (commitEvents n bank).count (.w .ds .l) + (commitEvents n bank).count (.w .ds .h) = 8 * n

/-- R112: one step of the controller in a running COMMIT, when the write does not fail: micro-operation `upc`, one
event, one line, then the next position or the end with its response. -/
def Obligations.CommitStepWritesOneLine : Prop :=
  ∀ s : State, s.cfg.wf = true → s.rstAsserted = false → s.mode = .busy → s.cur = .commit →
    s.upc < 24 * s.cfg.n + 2 → s.writeFails = false →
    ∃ t op, commitOp s.cfg.n s.bits s.upc = some op ∧ step s = .next t ∧
      t.trace = s.trace ++ [.w op.line (Level.ofBool op.high)] ∧ t.lines.get op.line = Level.ofBool op.high ∧
      (∀ y, y ≠ op.line → t.lines.get y = s.lines.get y) ∧
      t.bits = s.bits ∧ t.outputEnabled = s.outputEnabled ∧ t.perr = s.perr ∧ t.pf = s.pf ∧
      (s.upc + 1 < 24 * s.cfg.n + 2 →
        t.mode = .busy ∧ t.cur = .commit ∧ t.upc = s.upc + 1 ∧ t.rsp = none ∧ t.responses = s.responses) ∧
      (s.upc + 1 = 24 * s.cfg.n + 2 →
        t.mode = .idle ∧ t.cur = .none ∧ t.upc = 0 ∧ Answers s t 0x5000 .ok 0)

/-- R112, R134: one step of the controller in a running MRESET, when the write does not fail: `MR` Low and the bank
zeroed, the micro-operations of CommitSeq, `MR` High; then the next position or the end with its response. -/
def Obligations.MresetStepWritesOneLine : Prop :=
  ∀ s : State, s.cfg.wf = true → s.rstAsserted = false → s.mode = .busy → s.cur = .mreset →
    s.cfg.mrBound = true → s.upc < 24 * s.cfg.n + 4 → s.writeFails = false →
    ∃ t x high, step s = .next t ∧ WritesLine s t x high ∧
      (s.upc = 0 → x = .mr ∧ high = false ∧ ∀ r, t.bits.read r = 0) ∧
      (0 < s.upc → t.bits = s.bits) ∧
      (0 < s.upc → s.upc ≤ 24 * s.cfg.n + 2 →
        ∃ op, commitOp s.cfg.n s.bits (s.upc - 1) = some op ∧ x = op.line ∧ high = op.high) ∧
      (s.upc = 24 * s.cfg.n + 3 → x = .mr ∧ high = true) ∧
      (s.upc + 1 < 24 * s.cfg.n + 4 →
        t.mode = .busy ∧ t.cur = .mreset ∧ t.upc = s.upc + 1 ∧ t.rsp = none ∧ t.responses = s.responses) ∧
      (s.upc + 1 = 24 * s.cfg.n + 4 →
        t.mode = .idle ∧ t.cur = .none ∧ t.upc = 0 ∧ Answers s t 0x7000 .ok 0)

/-- R112, R191: one step of the controller in construction, with the pin capability and when the write does not fail:
the first writes of the lines, the bank zeroed at `c0`, the micro-operations of CommitSeq; no response. -/
def Obligations.InitStepWritesOneLine : Prop :=
  ∀ s : State, let c0 := 3 + s.cfg.oeBound.toNat + s.cfg.mrBound.toNat
    s.cfg.wf = true → s.rstAsserted = false → s.mode = .init → s.cur = .init →
    s.upc < c0 + 24 * s.cfg.n + 2 → (s.upc = 0 → s.cfg.ctrlAvail = true) → s.writeFails = false →
    ∃ t x high, step s = .next t ∧ WritesLine s t x high ∧ t.rsp = none ∧ t.responses = s.responses ∧
      (s.upc = 0 → x = .ds ∧ high = false) ∧ (s.upc = 1 → x = .stcp ∧ high = false) ∧
      (s.upc = 2 → x = .shcp ∧ high = false) ∧
      (s.cfg.oeBound = true → s.upc = 3 → x = .oe ∧ high = true) ∧
      (s.cfg.mrBound = true → s.upc = 3 + s.cfg.oeBound.toNat → x = .mr ∧ high = true) ∧
      (s.upc = c0 → ∀ r, t.bits.read r = 0) ∧ (s.upc ≠ c0 → t.bits = s.bits) ∧
      (c0 ≤ s.upc → ∃ op, commitOp s.cfg.n s.bits (s.upc - c0) = some op ∧ x = op.line ∧ high = op.high) ∧
      (s.upc + 1 < c0 + 24 * s.cfg.n + 2 → t.mode = .init ∧ t.cur = .init ∧ t.upc = s.upc + 1) ∧
      (s.upc + 1 = c0 + 24 * s.cfg.n + 2 → t.mode = .idle ∧ t.cur = .none ∧ t.upc = 0)

/-- R110, R114: a COMMIT presented in `IDLE` runs to completion: the writes of the nested loops in order, one `OK`,
the line levels of R114, and nothing else of the block changed. No write fails and no reset comes in between. -/
def Obligations.CommitCompletes : Prop :=
  ∀ (s : State) (rest : List HostMove),
    s.cfg.wf = true → s.writesSucceed (24 * s.cfg.n + 2) → s.mode = .idle → s.presents 0x5000 rest → s.noReset = true →
    ∃ t, Host.Core.run core (24 * s.cfg.n + 3) s = .next t ∧
      t.trace = s.trace ++ commitWrites s.cfg.n s.bits ∧ Answers s t 0x5000 .ok 0 ∧
      t.mode = .idle ∧ t.cur = .none ∧ t.upc = 0 ∧
      t.lines = { s.lines with stcp := .h, shcp := .h, ds := Level.ofBool (s.bits.bitRead 0) } ∧
      t.pinErr = s.pinErrAfter (24 * s.cfg.n + 2) ∧
      t = { s with lines := t.lines, cur := t.cur, upc := t.upc, rsp := t.rsp, chain := t.chain, pinErr := t.pinErr,
                   trace := t.trace, responses := t.responses, host := t.host }

/-- R116, R157: with `MR` not Low and no write that fails, from any chips' contents and any line levels, a COMMIT makes the chips agree with
the bank; until its last write the storage stage keeps what it held, while the shift stage already holds the bank
after micro-operation `24*N`. -/
def Obligations.CommitLatchesBank : Prop :=
  ∀ (s : State) (rest : List HostMove),
    s.cfg.wf = true → s.writesSucceed (24 * s.cfg.n + 2) → s.mode = .idle → s.presents 0x5000 rest →
    s.noReset = true → eff s.cfg s.lines .mr = .h → s.chain.sh.length = 8 * s.cfg.n →
    (∃ u, Host.Core.run core (24 * s.cfg.n + 2) s = .next u ∧
      u.chain.sh = bankPattern s.cfg.n s.bits ∧ u.chain.q = s.chain.q) ∧
    ∃ t, Host.Core.run core (24 * s.cfg.n + 3) s = .next t ∧
      t.chain.sh = bankPattern s.cfg.n s.bits ∧ t.chain.q = bankPattern s.cfg.n s.bits ∧ t.coherent

/-- R57, R59: the storage stage (what the pins show) changes only in the step of the latch edge that ends a COMMIT,
an MRESET or construction, and then to the whole shift stage at once. -/
def Obligations.OutputsChangeOnlyAtFinalLatch : Prop :=
  ∀ s t : State, step s = .next t →
    t.chain.q = s.chain.q ∨
      (t.chain.q = s.chain.sh ∧ s.rstAsserted = false ∧ (s.mode = .init ∨ s.mode = .busy) ∧
        ((s.cur = .commit ∧ s.upc = 24 * s.cfg.n + 1) ∨ (s.cur = .mreset ∧ s.upc = 24 * s.cfg.n + 2) ∨
          (s.cur = .init ∧ s.upc + 1 = initLen s.cfg)))

/-! Output-Enable, Master-Clear, STATUS (42_oe_mr_status). -/

/-- R130, R131: the complete transition table; the two rows that write a line, when the write does not fail. -/
def Obligations.SetoeTransitionTable : Prop :=
  ∀ s : State, s.cfg.wf = true → s.mode = .idle →
    (s.cfg.oeBound = true → s.outputEnabled = false → s.writeFails = false →
      ∃ t, exec (.setoe true) s = .next t ∧ Answers s t 0x6800 .ok 0 ∧
        t = { s with outputEnabled := true, lines := { s.lines with oe := .l }, trace := s.trace ++ [.w .oe .l],
                     pinErr := t.pinErr, rsp := t.rsp, responses := t.responses }) ∧
    (s.cfg.oeBound = true → s.outputEnabled = true → s.writeFails = false →
      ∃ t, exec (.setoe false) s = .next t ∧ Answers s t 0x6000 .ok 0 ∧
        t = { s with outputEnabled := false, lines := { s.lines with oe := .h }, trace := s.trace ++ [.w .oe .h],
                     pinErr := t.pinErr, rsp := t.rsp, responses := t.responses }) ∧
    (s.outputEnabled = true →
      ∃ t, exec (.setoe true) s = .next t ∧ Answers s t 0x6800 .ok 0 ∧
        t = { s with rsp := t.rsp, responses := t.responses }) ∧
    (s.cfg.oeBound = true → s.outputEnabled = false →
      ∃ t, exec (.setoe false) s = .next t ∧ Answers s t 0x6000 .ok 0 ∧
        t = { s with rsp := t.rsp, responses := t.responses }) ∧
    (s.cfg.oeBound = false → s.outputEnabled = true →
      ∃ t, exec (.setoe false) s = .next t ∧ Answers s t 0x6000 .unavail 0 ∧
        t = { s with rsp := t.rsp, responses := t.responses })

/-- R131: what SETOE leaves unchanged in every case: the bank, the other four lines, the chips, the mode, the host. -/
def Obligations.SetoeFrame : Prop :=
  ∀ (s t : State) (v : Bool), exec (.setoe v) s = .next t →
    t.cfg = s.cfg ∧ t.bits = s.bits ∧ (∀ r, t.bits.read r = s.bits.read r) ∧
    (∀ x, x ≠ .oe → t.lines.get x = s.lines.get x) ∧ t.chain = s.chain ∧ t.mode = s.mode ∧
    (s.cur = .none ∧ s.upc = 0 → t.cur = s.cur ∧ t.upc = s.upc) ∧ t.perr = s.perr ∧ t.host = s.host

/-- R176: a SETOE whose line write fails keeps the cached state, sets `PF`, and leaves the line old or new. -/
def Obligations.SetoeWriteFails : Prop :=
  ∀ (s : State) (v : Bool), s.cfg.wf = true → s.mode = .idle → s.cfg.oeBound = true → v ≠ s.outputEnabled →
    s.writeFails = true →
    ∃ t, exec (.setoe v) s = .next t ∧ Answers s t (encode (.setoe v)) .errPin 0 ∧
      t.outputEnabled = s.outputEnabled ∧ t.pf = true ∧ t.trace = s.trace ++ [.wf .oe (Level.ofBool !v)] ∧
      (t.lines.oe = Level.ofBool !v ∨ t.lines.oe = s.lines.oe) ∧ t.mode = .idle ∧ t.cur = .none ∧ t.upc = 0

/-- R132: two SETOE of one value on a bound line write it once if the value differed (when that write does not fail),
not at all if it did not. -/
def Obligations.SetoeWriteElision : Prop :=
  ∀ (s : State) (v : Bool), s.cfg.wf = true → s.mode = .idle → s.cfg.oeBound = true →
    (v ≠ s.outputEnabled → s.writeFails = false) →
    ∃ t u, exec (.setoe v) s = .next t ∧ exec (.setoe v) t = .next u ∧
      u.trace = s.trace ++ (if v = s.outputEnabled then [] else [.w .oe (Level.ofBool !v)]) ∧
      u.outputEnabled = v

/-- R26, R130: nothing but a SETOE of the other value on a bound line, or a reset, changes `outputEnabled`. -/
def Obligations.OutputEnabledChangesOnlyBySetoe : Prop :=
  ∀ s t : State, step s = .next t → t.outputEnabled ≠ s.outputEnabled →
    s.rstAsserted = true ∨
      (s.mode = .idle ∧ s.cfg.oeBound = true ∧
        ∃ w rest, s.presents w rest ∧ decodeWord w = .ok (.setoe t.outputEnabled))

/-- R133: MRESET on an unbound line is a status: nothing changes but the response. -/
def Obligations.MresetUnavailable : Prop :=
  ∀ s : State, s.cfg.wf = true → s.mode = .idle → s.cfg.mrBound = false →
    ∃ t, exec .mreset s = .next t ∧ Answers s t 0x7000 .unavail 0 ∧
      t = { s with rsp := t.rsp, responses := t.responses }

/-- R134: accepting MRESET on a bound line starts its sequence. -/
def Obligations.MresetAccepted : Prop :=
  ∀ s : State, s.cfg.wf = true → s.mode = .idle → s.cfg.mrBound = true →
    exec .mreset s = .next { s with mode := .busy, cur := .mreset, upc := 0 }

/-- R133, R134: an MRESET on a bound line runs to completion: Master-Clear Low, a commit of a zero bank, Master-Clear
High, one `OK`; bank and chips all zero; Output-Enable untouched. No write fails and no reset comes in between. -/
def Obligations.MresetCompletes : Prop :=
  ∀ (s : State) (rest : List HostMove),
    s.cfg.wf = true → s.writesSucceed (24 * s.cfg.n + 4) → s.cfg.mrBound = true → s.mode = .idle →
    s.presents 0x7000 rest → s.noReset = true → s.chain.sh.length = 8 * s.cfg.n →
    ∃ t, Host.Core.run core (24 * s.cfg.n + 5) s = .next t ∧
      t.trace = s.trace ++ mresetWrites s.cfg.n ∧ Answers s t 0x7000 .ok 0 ∧
      t.mode = .idle ∧ t.cur = .none ∧ t.upc = 0 ∧ (∀ r, t.bits.read r = 0) ∧
      t.lines = { s.lines with mr := .h, stcp := .h, shcp := .h, ds := .l } ∧
      t.chain.sh = List.replicate (8 * s.cfg.n) false ∧ t.chain.q = List.replicate (8 * s.cfg.n) false ∧
      t.pinErr = s.pinErrAfter (24 * s.cfg.n + 4) ∧
      t = { s with bits := t.bits, lines := t.lines, cur := t.cur, upc := t.upc, rsp := t.rsp, chain := t.chain,
                   pinErr := t.pinErr, trace := t.trace, responses := t.responses, host := t.host }

/-- R174: `UNAVAIL` is answered by a command exactly in its two cases, and changes nothing else. The premise is R26:
an unbound Output-Enable is enabled. -/
def Obligations.UnavailExactlyWhenUnbound : Prop :=
  ∀ (i : Instr) (s : State), s.cfg.wf = true → s.mode = .idle →
    (s.cfg.oeBound = false → s.outputEnabled = true) →
    ((∃ t, exec i s = .next t ∧ Answers s t (encode i) .unavail 0) ↔
      (i = .setoe false ∧ s.cfg.oeBound = false) ∨ (i = .mreset ∧ s.cfg.mrBound = false)) ∧
    (∀ t, exec i s = .next t → Answers s t (encode i) .unavail 0 →
      t = { s with rsp := t.rsp, responses := t.responses })

/-- R136, R30: STATUS answers the STATUS word and changes nothing else. -/
def Obligations.StatusAnswersStatusWord : Prop :=
  ∀ s : State, s.cfg.wf = true → s.mode = .idle →
    ∃ t d, exec .status s = .next t ∧ Answers s t 0x8000 .ok d ∧
      d.getLsbD 0 = s.outputEnabled ∧ d.getLsbD 1 = decide (0 < s.cfg.oePin) ∧
      d.getLsbD 2 = decide (0 < s.cfg.mrPin) ∧ d.getLsbD 3 = s.perr ∧ d.getLsbD 4 = s.pf ∧
      d.getLsbD 5 = false ∧ d.getLsbD 6 = false ∧ d.getLsbD 7 = false ∧
      (d.extractLsb' 8 8).toNat = s.cfg.n - 1 ∧
      t = { s with rsp := t.rsp, responses := t.responses }

/-! Construction and failures (60_exceptions, 70_reset_and_hazards). -/

/-- R191, R195, R33: a construction, after power-up or any later reset, runs to completion from any chips' contents
when no write fails: the "after successful INIT" column, the writes of R191, no response, the chips all zero. -/
def Obligations.ConstructionCompletes : Prop :=
  ∀ (cfg : Cfg) (chain : Chain) (moves : List HostMove) (answers : List Bool) (draws : Nat),
    let s := { State.powerUp cfg with chain := chain, host := moves, pinErr := answers, draws := draws }
    cfg.wf = true → s.writesSucceed (initLen cfg) → cfg.ctrlAvail = true → s.noReset = true →
    chain.sh.length = 8 * cfg.n →
    ∃ t, Host.Core.run core (initLen cfg) s = .next t ∧
      (∀ r, t.bits.read r = 0) ∧
      t.lines = ⟨.l, .h, .h, if cfg.oeBound then .h else .z, if cfg.mrBound then .h else .z⟩ ∧
      t.outputEnabled = !cfg.oeBound ∧ t.mode = .idle ∧ t.cur = .none ∧ t.upc = 0 ∧
      t.perr = false ∧ t.pf = false ∧ t.trace = initWrites cfg ∧ t.responses = [] ∧ t.rsp = none ∧
      t.cfg = cfg ∧ t.pinErr = s.pinErrAfter (initLen cfg) ∧ t.draws = draws ∧
      t.chain.sh = List.replicate (8 * cfg.n) false ∧ t.chain.q = List.replicate (8 * cfg.n) false

/-- R175: without the pin capability construction fails in its first step, before any line is written, and stays
failed until a reset; a reset without the capability fails again, where the reset move carries and sets the strap,
also from a state in which it was true (log entry 2: DESIGN CHOICE, DEDUCED). -/
def Obligations.NoControllerFailsConstruction : Prop :=
  (∀ s : State, s.cfg.wf = true → s.rstAsserted = false → s.mode = .init → s.cur = .init → s.upc = 0 →
    s.cfg.ctrlAvail = false →
    ∃ t, step s = .next t ∧ t.mode = .failed ∧ t.initFail = true ∧ t.cmdReady = false ∧
      t = { s with mode := .failed, cur := .none, upc := 0, rsp := none, host := t.host }) ∧
  (∀ s : State, s.cfg.wf = true → s.rstAsserted = false → s.mode = .failed →
    ∃ t, step s = .next t ∧ t = { s with rsp := none, host := t.host }) ∧
  (∀ (s : State) (rest : List HostMove), s.cfg.wf = true → s.host = .reset false :: rest →
    (∀ avail, rest.head? ≠ some (.reset avail)) →
    ∃ t, Host.Core.run core 2 s = .next t ∧ t.mode = .failed ∧ t.trace = [] ∧
      t.lines = ⟨.z, .z, .z, .z, .z⟩ ∧ t.initFail = true ∧ t.cmdReady = false)

/-- R176: in a running COMMIT or MRESET a failed write ends the command: `WF`, the line old or new, `PF`, `ERR_PIN`,
`IDLE`, and no state action (the bank stays as it is). -/
def Obligations.PinFaultAbandonsCommand : Prop :=
  ∀ (s : State) (op : MicroOp), s.cfg.wf = true → s.rstAsserted = false → s.mode = .busy →
    s.cur = .commit ∨ s.cur = .mreset → s.microOp = some op → s.writeFails = true →
    ∃ t, step s = .next t ∧
      Answers s t (if s.cur = .commit then 0x5000 else 0x7000) .errPin 0 ∧
      t.trace = s.trace ++ [.wf op.line (Level.ofBool op.high)] ∧
      (t.lines.get op.line = Level.ofBool op.high ∨ t.lines.get op.line = s.lines.get op.line) ∧
      (∀ y, y ≠ op.line → t.lines.get y = s.lines.get y) ∧
      t.pf = true ∧ t.mode = .idle ∧ t.cur = .none ∧ t.upc = 0 ∧ t.bits = s.bits ∧
      t.outputEnabled = s.outputEnabled ∧ t.perr = s.perr

/-- R176: during construction a failed write ends in `FAILED` without a response. -/
def Obligations.PinFaultFailsConstruction : Prop :=
  ∀ (s : State) (op : MicroOp), s.cfg.wf = true → s.rstAsserted = false → s.mode = .init → s.cur = .init →
    s.cfg.ctrlAvail = true → s.microOp = some op → s.writeFails = true →
    ∃ t, step s = .next t ∧ t.mode = .failed ∧ t.cur = .none ∧ t.upc = 0 ∧ t.pf = true ∧ t.rsp = none ∧
      t.responses = s.responses ∧ t.trace = s.trace ++ [.wf op.line (Level.ofBool op.high)] ∧
      (t.lines.get op.line = Level.ofBool op.high ∨ t.lines.get op.line = s.lines.get op.line) ∧
      (∀ y, y ≠ op.line → t.lines.get y = s.lines.get y)

/-- R29: the sticky flags are cleared by reset only; `PERR` is set only with an `ERR_ILLEGAL` or `ERR_RANGE` answer,
`PF` only with a failed write. -/
def Obligations.StickyFlags : Prop :=
  ∀ s t : State, step s = .next t → s.rstAsserted = false →
    (s.perr = true → t.perr = true) ∧ (s.pf = true → t.pf = true) ∧
    (s.perr = false → (t.perr = true ↔
      ∃ r, t.rsp = some r ∧ (r.code = .errIllegal ∨ r.code = .errRange))) ∧
    (s.pf = false → (t.pf = true ↔ ∃ x v, t.trace = s.trace ++ [.wf x v]))

/-- R76, R32: in a step without reset at most one response is presented, and the log grows by exactly it; the data
of a response that is not `OK` is 0. -/
def Obligations.OneResponsePerStep : Prop :=
  ∀ s t : State, step s = .next t → s.rstAsserted = false →
    (t.rsp = none ∧ t.responses = s.responses) ∨
      ∃ r, t.rsp = some r ∧ t.responses = s.responses ++ [r] ∧ (r.code ≠ .ok → r.data = 0)

/-! The driven chain (45_chain_reference). -/

/-- R152, R153, R154, R156: what a line write does to the chips. -/
def Obligations.ChainReactions : Prop :=
  ∀ (s : State) (x : Line) (v : Level),
    let t := s.setLine x v
    (x = .mr → eff t.cfg t.lines .mr = .l → (∀ b ∈ t.chain.sh, b = false) ∧ t.chain.q = s.chain.q) ∧
    (x = .shcp → eff s.cfg s.lines .shcp = .l → eff t.cfg t.lines .shcp = .h → eff s.cfg s.lines .mr = .l →
      (∀ b ∈ t.chain.sh, b = false) ∧ t.chain.q = s.chain.q) ∧
    (x = .shcp → eff s.cfg s.lines .shcp = .l → eff t.cfg t.lines .shcp = .h → eff s.cfg s.lines .mr = .h →
      t.chain.sh.length = s.chain.sh.length ∧ t.chain.q = s.chain.q ∧
      ∀ k < s.chain.sh.length, t.chain.sh.getD k false =
        if k = 0 then decide (eff s.cfg s.lines .ds = .h) else s.chain.sh.getD (k - 1) false) ∧
    (x = .stcp → eff s.cfg s.lines .stcp = .l → eff t.cfg t.lines .stcp = .h →
      t.chain.q = s.chain.sh ∧ t.chain.sh = s.chain.sh) ∧
    (x = .ds ∨ x = .oe → t.chain = s.chain) ∧
    (x = .mr → eff t.cfg t.lines .mr = .h → t.chain = s.chain) ∧
    (x = .shcp ∨ x = .stcp → eff t.cfg t.lines x = .l ∨ eff t.cfg t.lines x = eff s.cfg s.lines x →
      t.chain = s.chain)

/-- R155, R151: output pin `k` shows `q[k]` when the effective Output-Enable is Low (unbound, or driven Low), and is
not driven otherwise; a write of Output-Enable has no effect on the two stages. -/
def Obligations.OutputPinsGated : Prop :=
  ∀ (s : State) (k : Nat),
    (s.cfg.oeBound = false ∨ s.lines.oe = .l → s.outputPin k = Level.ofBool (s.chain.q.getD k false)) ∧
    (s.cfg.oeBound = true → s.lines.oe ≠ .l → s.outputPin k = .z) ∧
    ∀ v, (s.setLine .oe v).chain = s.chain

/-! Whole-machine rules. -/

/-- Every value right after power-up meets the invariant, in every well-formed configuration. -/
def Obligations.InvariantHoldsAtReset : Prop :=
  State.reset.Inv ∧ ∀ cfg : Cfg, cfg.wf = true → (State.powerUp cfg).Inv

/-- R20, R21, R24, R26, R27, R28, R154: every step from a state that meets the invariant leads to one that does. -/
def Obligations.StepKeepsInvariant : Prop :=
  ∀ s t : State, s.Inv → step s = .next t → t.Inv

/-- R206: the machine never stops: from a state that meets the invariant every step answers a next state. -/
def Obligations.StepNeverStops : Prop :=
  ∀ s : State, s.Inv → ∃ t, step s = .next t

/-- R206: a running sequence ends: within as many steps as micro-operations are left, at most `24*N + 7`, the block
is in `IDLE` or `FAILED`, if the host does not reset. -/
def Obligations.RunningSequenceEnds : Prop :=
  ∀ s : State, s.Inv → s.mode = .init ∨ s.mode = .busy → s.noReset = true →
    s.seqLen - s.upc ≤ 24 * s.cfg.n + 7 ∧
    ∃ k t, k ≤ s.seqLen - s.upc ∧ Host.Core.run core k s = .next t ∧ (t.mode = .idle ∨ t.mode = .failed)

/-- R20, R56: the bank is written only by reset, an accepted SETBIT or SETALL, and the zeroing inside MRESET and
construction. -/
def Obligations.BankWrittenOnlyBy : Prop :=
  ∀ s t : State, step s = .next t → t.bits ≠ s.bits →
    s.rstAsserted = true ∨
    (s.mode = .idle ∧ ∃ w rest i, s.presents w rest ∧ decodeWord w = .ok i ∧
      ((∃ idx v, i = .setbit idx v) ∨ ∃ v, i = .setall v)) ∨
    ((s.mode = .init ∨ s.mode = .busy) ∧
      ((s.cur = .mreset ∧ s.upc = 0) ∨ (s.cur = .init ∧ s.upc = initPrefixLen s.cfg)))

/-- R31, R20: the block never reads the chips: two runs that differ only in the chips' contents make the same step
in everything but the chips. -/
def Obligations.BlockNeverReadsChain : Prop :=
  ∀ (s t : State) (c : Chain), step s = .next t →
    ∃ c', step { s with chain := c } = .next { t with chain := c' }

/-- R8: no rule reads the histories: a step without reset does the same whatever was recorded before. -/
def Obligations.HistoriesNeverRead : Prop :=
  ∀ (s t : State) (tr : List Event) (rs : List Response), step s = .next t → s.rstAsserted = false →
    step { s with trace := tr ++ s.trace, responses := rs ++ s.responses } =
      .next { t with trace := tr ++ t.trace, responses := rs ++ t.responses }
end

