-- ==== Sys2Proof/Laws/Assembler.lean ====
section
/-! SUPPORT. What performing an operation of the document does (30_encoding R79), said once per kind of operation. -/

namespace Sys2Proof.Machine

@[simp] theorem State.configure_cfg (s : State) (cfg : Cfg) : (s.configure cfg).cfg = cfg := rfl
@[simp] theorem State.configure_host (s : State) (cfg : Cfg) : (s.configure cfg).host = s.host := rfl
@[simp] theorem State.configure_pinErr (s : State) (cfg : Cfg) : (s.configure cfg).pinErr = s.pinErr := rfl
@[simp] theorem State.configure_draws (s : State) (cfg : Cfg) : (s.configure cfg).draws = s.draws := rfl

/-- The chips keep `8*N` shift stages. -/
theorem State.configure_chainLength {s : State} (cfg : Cfg) (h : s.chain.sh.length = s.cfg.nbits) :
    (s.configure cfg).chain.sh.length = cfg.nbits := by
  unfold State.configure
  split
  · rename_i hn
    simp [h, Cfg.nbits, hn]
  · simp [Chain.powerUp, Cfg.nbits]

theorem issueMove_wellFormed {i : Instr} (h : i.WellFormed = true) : issueMove i = some (.issue (encode i)) := by
  unfold issueMove; rw [if_pos h]

theorem issueMove_illFormed {i : Instr} (h : i.WellFormed = false) : issueMove i = none := by
  unfold issueMove; rw [if_neg (by simp [h])]

/-- An operation that is a command makes the move of that command after those the host has left, or cannot be
performed. -/
theorem SourceOp.perform_command {o : SourceOp} {i : Instr} (h : o.command = some i) (s : State) :
    o.perform s = (issueMove i).map fun m => { s with host := s.host ++ [m] } := by
  cases o <;> simp_all [SourceOp.perform, SourceOp.hostMoves, SourceOp.command, Function.comp_def]

theorem SourceOp.perform_construct (cfg : Cfg) (s : State) :
    (SourceOp.construct cfg).perform s =
      some { s.configure cfg with host := .reset cfg.ctrlAvail :: List.replicate (initLen cfg) .wait } := rfl

theorem SourceOp.perform_destroy (avail : Bool) (s : State) :
    (SourceOp.destroy avail).perform s = some { s with host := s.host ++ [.reset avail] } := rfl

end Sys2Proof.Machine
end

