-- ==== Sys2Proof/Laws/State.lean ====
section
/-! SUPPORT. What each named operation leaves in each field of the state, one lemma per field: true by rfl, tagged
simp, so that no later proof unfolds a record update. -/

namespace Sys2Proof.Machine

/-! `State.respond` (R12, R76). -/

@[simp] theorem State.respond_cfg (s : State) (w : Word) (code : Code) (data : Word) :
    (s.respond w code data).cfg = s.cfg := rfl
@[simp] theorem State.respond_bits (s : State) (w : Word) (code : Code) (data : Word) :
    (s.respond w code data).bits = s.bits := rfl
@[simp] theorem State.respond_lines (s : State) (w : Word) (code : Code) (data : Word) :
    (s.respond w code data).lines = s.lines := rfl
@[simp] theorem State.respond_outputEnabled (s : State) (w : Word) (code : Code) (data : Word) :
    (s.respond w code data).outputEnabled = s.outputEnabled := rfl
@[simp] theorem State.respond_mode (s : State) (w : Word) (code : Code) (data : Word) :
    (s.respond w code data).mode = s.mode := rfl
@[simp] theorem State.respond_cur (s : State) (w : Word) (code : Code) (data : Word) :
    (s.respond w code data).cur = s.cur := rfl
@[simp] theorem State.respond_upc (s : State) (w : Word) (code : Code) (data : Word) :
    (s.respond w code data).upc = s.upc := rfl
@[simp] theorem State.respond_perr (s : State) (w : Word) (code : Code) (data : Word) :
    (s.respond w code data).perr = s.perr := rfl
@[simp] theorem State.respond_pf (s : State) (w : Word) (code : Code) (data : Word) :
    (s.respond w code data).pf = s.pf := rfl
@[simp] theorem State.respond_rsp (s : State) (w : Word) (code : Code) (data : Word) :
    (s.respond w code data).rsp = some ⟨w, code, data⟩ := rfl
@[simp] theorem State.respond_chain (s : State) (w : Word) (code : Code) (data : Word) :
    (s.respond w code data).chain = s.chain := rfl
@[simp] theorem State.respond_trace (s : State) (w : Word) (code : Code) (data : Word) :
    (s.respond w code data).trace = s.trace := rfl
@[simp] theorem State.respond_responses (s : State) (w : Word) (code : Code) (data : Word) :
    (s.respond w code data).responses = s.responses ++ [⟨w, code, data⟩] := rfl
@[simp] theorem State.respond_host (s : State) (w : Word) (code : Code) (data : Word) :
    (s.respond w code data).host = s.host := rfl
@[simp] theorem State.respond_pinErr (s : State) (w : Word) (code : Code) (data : Word) :
    (s.respond w code data).pinErr = s.pinErr := rfl
@[simp] theorem State.respond_draws (s : State) (w : Word) (code : Code) (data : Word) :
    (s.respond w code data).draws = s.draws := rfl

/-! `State.toIdle` (R112). -/

@[simp] theorem State.toIdle_cfg (s : State) :
    s.toIdle.cfg = s.cfg := rfl
@[simp] theorem State.toIdle_bits (s : State) :
    s.toIdle.bits = s.bits := rfl
@[simp] theorem State.toIdle_lines (s : State) :
    s.toIdle.lines = s.lines := rfl
@[simp] theorem State.toIdle_outputEnabled (s : State) :
    s.toIdle.outputEnabled = s.outputEnabled := rfl
@[simp] theorem State.toIdle_mode (s : State) :
    s.toIdle.mode = .idle := rfl
@[simp] theorem State.toIdle_cur (s : State) :
    s.toIdle.cur = .none := rfl
@[simp] theorem State.toIdle_upc (s : State) :
    s.toIdle.upc = 0 := rfl
@[simp] theorem State.toIdle_perr (s : State) :
    s.toIdle.perr = s.perr := rfl
@[simp] theorem State.toIdle_pf (s : State) :
    s.toIdle.pf = s.pf := rfl
@[simp] theorem State.toIdle_rsp (s : State) :
    s.toIdle.rsp = s.rsp := rfl
@[simp] theorem State.toIdle_chain (s : State) :
    s.toIdle.chain = s.chain := rfl
@[simp] theorem State.toIdle_trace (s : State) :
    s.toIdle.trace = s.trace := rfl
@[simp] theorem State.toIdle_responses (s : State) :
    s.toIdle.responses = s.responses := rfl
@[simp] theorem State.toIdle_host (s : State) :
    s.toIdle.host = s.host := rfl
@[simp] theorem State.toIdle_pinErr (s : State) :
    s.toIdle.pinErr = s.pinErr := rfl
@[simp] theorem State.toIdle_draws (s : State) :
    s.toIdle.draws = s.draws := rfl

/-! `State.toFailed` (R175). -/

@[simp] theorem State.toFailed_cfg (s : State) :
    s.toFailed.cfg = s.cfg := rfl
@[simp] theorem State.toFailed_bits (s : State) :
    s.toFailed.bits = s.bits := rfl
@[simp] theorem State.toFailed_lines (s : State) :
    s.toFailed.lines = s.lines := rfl
@[simp] theorem State.toFailed_outputEnabled (s : State) :
    s.toFailed.outputEnabled = s.outputEnabled := rfl
@[simp] theorem State.toFailed_mode (s : State) :
    s.toFailed.mode = .failed := rfl
@[simp] theorem State.toFailed_cur (s : State) :
    s.toFailed.cur = .none := rfl
@[simp] theorem State.toFailed_upc (s : State) :
    s.toFailed.upc = 0 := rfl
@[simp] theorem State.toFailed_perr (s : State) :
    s.toFailed.perr = s.perr := rfl
@[simp] theorem State.toFailed_pf (s : State) :
    s.toFailed.pf = s.pf := rfl
@[simp] theorem State.toFailed_rsp (s : State) :
    s.toFailed.rsp = s.rsp := rfl
@[simp] theorem State.toFailed_chain (s : State) :
    s.toFailed.chain = s.chain := rfl
@[simp] theorem State.toFailed_trace (s : State) :
    s.toFailed.trace = s.trace := rfl
@[simp] theorem State.toFailed_responses (s : State) :
    s.toFailed.responses = s.responses := rfl
@[simp] theorem State.toFailed_host (s : State) :
    s.toFailed.host = s.host := rfl
@[simp] theorem State.toFailed_pinErr (s : State) :
    s.toFailed.pinErr = s.pinErr := rfl
@[simp] theorem State.toFailed_draws (s : State) :
    s.toFailed.draws = s.draws := rfl

/-! `State.setPerr` (R29). -/

@[simp] theorem State.setPerr_cfg (s : State) :
    s.setPerr.cfg = s.cfg := rfl
@[simp] theorem State.setPerr_bits (s : State) :
    s.setPerr.bits = s.bits := rfl
@[simp] theorem State.setPerr_lines (s : State) :
    s.setPerr.lines = s.lines := rfl
@[simp] theorem State.setPerr_outputEnabled (s : State) :
    s.setPerr.outputEnabled = s.outputEnabled := rfl
@[simp] theorem State.setPerr_mode (s : State) :
    s.setPerr.mode = s.mode := rfl
@[simp] theorem State.setPerr_cur (s : State) :
    s.setPerr.cur = s.cur := rfl
@[simp] theorem State.setPerr_upc (s : State) :
    s.setPerr.upc = s.upc := rfl
@[simp] theorem State.setPerr_perr (s : State) :
    s.setPerr.perr = true := rfl
@[simp] theorem State.setPerr_pf (s : State) :
    s.setPerr.pf = s.pf := rfl
@[simp] theorem State.setPerr_rsp (s : State) :
    s.setPerr.rsp = s.rsp := rfl
@[simp] theorem State.setPerr_chain (s : State) :
    s.setPerr.chain = s.chain := rfl
@[simp] theorem State.setPerr_trace (s : State) :
    s.setPerr.trace = s.trace := rfl
@[simp] theorem State.setPerr_responses (s : State) :
    s.setPerr.responses = s.responses := rfl
@[simp] theorem State.setPerr_host (s : State) :
    s.setPerr.host = s.host := rfl
@[simp] theorem State.setPerr_pinErr (s : State) :
    s.setPerr.pinErr = s.pinErr := rfl
@[simp] theorem State.setPerr_draws (s : State) :
    s.setPerr.draws = s.draws := rfl

/-! `State.setPf` (R29). -/

@[simp] theorem State.setPf_cfg (s : State) :
    s.setPf.cfg = s.cfg := rfl
@[simp] theorem State.setPf_bits (s : State) :
    s.setPf.bits = s.bits := rfl
@[simp] theorem State.setPf_lines (s : State) :
    s.setPf.lines = s.lines := rfl
@[simp] theorem State.setPf_outputEnabled (s : State) :
    s.setPf.outputEnabled = s.outputEnabled := rfl
@[simp] theorem State.setPf_mode (s : State) :
    s.setPf.mode = s.mode := rfl
@[simp] theorem State.setPf_cur (s : State) :
    s.setPf.cur = s.cur := rfl
@[simp] theorem State.setPf_upc (s : State) :
    s.setPf.upc = s.upc := rfl
@[simp] theorem State.setPf_perr (s : State) :
    s.setPf.perr = s.perr := rfl
@[simp] theorem State.setPf_pf (s : State) :
    s.setPf.pf = true := rfl
@[simp] theorem State.setPf_rsp (s : State) :
    s.setPf.rsp = s.rsp := rfl
@[simp] theorem State.setPf_chain (s : State) :
    s.setPf.chain = s.chain := rfl
@[simp] theorem State.setPf_trace (s : State) :
    s.setPf.trace = s.trace := rfl
@[simp] theorem State.setPf_responses (s : State) :
    s.setPf.responses = s.responses := rfl
@[simp] theorem State.setPf_host (s : State) :
    s.setPf.host = s.host := rfl
@[simp] theorem State.setPf_pinErr (s : State) :
    s.setPf.pinErr = s.pinErr := rfl
@[simp] theorem State.setPf_draws (s : State) :
    s.setPf.draws = s.draws := rfl

/-! `State.logEvent` (R8). -/

@[simp] theorem State.logEvent_cfg (s : State) (e : Event) :
    (s.logEvent e).cfg = s.cfg := rfl
@[simp] theorem State.logEvent_bits (s : State) (e : Event) :
    (s.logEvent e).bits = s.bits := rfl
@[simp] theorem State.logEvent_lines (s : State) (e : Event) :
    (s.logEvent e).lines = s.lines := rfl
@[simp] theorem State.logEvent_outputEnabled (s : State) (e : Event) :
    (s.logEvent e).outputEnabled = s.outputEnabled := rfl
@[simp] theorem State.logEvent_mode (s : State) (e : Event) :
    (s.logEvent e).mode = s.mode := rfl
@[simp] theorem State.logEvent_cur (s : State) (e : Event) :
    (s.logEvent e).cur = s.cur := rfl
@[simp] theorem State.logEvent_upc (s : State) (e : Event) :
    (s.logEvent e).upc = s.upc := rfl
@[simp] theorem State.logEvent_perr (s : State) (e : Event) :
    (s.logEvent e).perr = s.perr := rfl
@[simp] theorem State.logEvent_pf (s : State) (e : Event) :
    (s.logEvent e).pf = s.pf := rfl
@[simp] theorem State.logEvent_rsp (s : State) (e : Event) :
    (s.logEvent e).rsp = s.rsp := rfl
@[simp] theorem State.logEvent_chain (s : State) (e : Event) :
    (s.logEvent e).chain = s.chain := rfl
@[simp] theorem State.logEvent_trace (s : State) (e : Event) :
    (s.logEvent e).trace = s.trace ++ [e] := rfl
@[simp] theorem State.logEvent_responses (s : State) (e : Event) :
    (s.logEvent e).responses = s.responses := rfl
@[simp] theorem State.logEvent_host (s : State) (e : Event) :
    (s.logEvent e).host = s.host := rfl
@[simp] theorem State.logEvent_pinErr (s : State) (e : Event) :
    (s.logEvent e).pinErr = s.pinErr := rfl
@[simp] theorem State.logEvent_draws (s : State) (e : Event) :
    (s.logEvent e).draws = s.draws := rfl

/-! `State.setLine` (R12, R152). -/

@[simp] theorem State.setLine_cfg (s : State) (x : Line) (v : Level) :
    (s.setLine x v).cfg = s.cfg := rfl
@[simp] theorem State.setLine_bits (s : State) (x : Line) (v : Level) :
    (s.setLine x v).bits = s.bits := rfl
@[simp] theorem State.setLine_lines (s : State) (x : Line) (v : Level) :
    (s.setLine x v).lines = s.lines.set x v := rfl
@[simp] theorem State.setLine_outputEnabled (s : State) (x : Line) (v : Level) :
    (s.setLine x v).outputEnabled = s.outputEnabled := rfl
@[simp] theorem State.setLine_mode (s : State) (x : Line) (v : Level) :
    (s.setLine x v).mode = s.mode := rfl
@[simp] theorem State.setLine_cur (s : State) (x : Line) (v : Level) :
    (s.setLine x v).cur = s.cur := rfl
@[simp] theorem State.setLine_upc (s : State) (x : Line) (v : Level) :
    (s.setLine x v).upc = s.upc := rfl
@[simp] theorem State.setLine_perr (s : State) (x : Line) (v : Level) :
    (s.setLine x v).perr = s.perr := rfl
@[simp] theorem State.setLine_pf (s : State) (x : Line) (v : Level) :
    (s.setLine x v).pf = s.pf := rfl
@[simp] theorem State.setLine_rsp (s : State) (x : Line) (v : Level) :
    (s.setLine x v).rsp = s.rsp := rfl
@[simp] theorem State.setLine_chain (s : State) (x : Line) (v : Level) :
    (s.setLine x v).chain = s.chain.react s.cfg s.lines (s.lines.set x v) x := rfl
@[simp] theorem State.setLine_trace (s : State) (x : Line) (v : Level) :
    (s.setLine x v).trace = s.trace := rfl
@[simp] theorem State.setLine_responses (s : State) (x : Line) (v : Level) :
    (s.setLine x v).responses = s.responses := rfl
@[simp] theorem State.setLine_host (s : State) (x : Line) (v : Level) :
    (s.setLine x v).host = s.host := rfl
@[simp] theorem State.setLine_pinErr (s : State) (x : Line) (v : Level) :
    (s.setLine x v).pinErr = s.pinErr := rfl
@[simp] theorem State.setLine_draws (s : State) (x : Line) (v : Level) :
    (s.setLine x v).draws = s.draws := rfl

/-! `State.driveSucceeds` (R12). -/

@[simp] theorem State.driveSucceeds_cfg (s : State) (x : Line) (high : Bool) :
    (s.driveSucceeds x high).cfg = s.cfg := rfl
@[simp] theorem State.driveSucceeds_bits (s : State) (x : Line) (high : Bool) :
    (s.driveSucceeds x high).bits = s.bits := rfl
@[simp] theorem State.driveSucceeds_lines (s : State) (x : Line) (high : Bool) :
    (s.driveSucceeds x high).lines = s.lines.set x (Level.ofBool high) := rfl
@[simp] theorem State.driveSucceeds_outputEnabled (s : State) (x : Line) (high : Bool) :
    (s.driveSucceeds x high).outputEnabled = s.outputEnabled := rfl
@[simp] theorem State.driveSucceeds_mode (s : State) (x : Line) (high : Bool) :
    (s.driveSucceeds x high).mode = s.mode := rfl
@[simp] theorem State.driveSucceeds_cur (s : State) (x : Line) (high : Bool) :
    (s.driveSucceeds x high).cur = s.cur := rfl
@[simp] theorem State.driveSucceeds_upc (s : State) (x : Line) (high : Bool) :
    (s.driveSucceeds x high).upc = s.upc := rfl
@[simp] theorem State.driveSucceeds_perr (s : State) (x : Line) (high : Bool) :
    (s.driveSucceeds x high).perr = s.perr := rfl
@[simp] theorem State.driveSucceeds_pf (s : State) (x : Line) (high : Bool) :
    (s.driveSucceeds x high).pf = s.pf := rfl
@[simp] theorem State.driveSucceeds_rsp (s : State) (x : Line) (high : Bool) :
    (s.driveSucceeds x high).rsp = s.rsp := rfl
@[simp] theorem State.driveSucceeds_chain (s : State) (x : Line) (high : Bool) :
    (s.driveSucceeds x high).chain = s.chain.react s.cfg s.lines (s.lines.set x (Level.ofBool high)) x := rfl
@[simp] theorem State.driveSucceeds_trace (s : State) (x : Line) (high : Bool) :
    (s.driveSucceeds x high).trace = s.trace ++ [.w x (Level.ofBool high)] := rfl
@[simp] theorem State.driveSucceeds_responses (s : State) (x : Line) (high : Bool) :
    (s.driveSucceeds x high).responses = s.responses := rfl
@[simp] theorem State.driveSucceeds_host (s : State) (x : Line) (high : Bool) :
    (s.driveSucceeds x high).host = s.host := rfl
@[simp] theorem State.driveSucceeds_pinErr (s : State) (x : Line) (high : Bool) :
    (s.driveSucceeds x high).pinErr = s.pinErr := rfl
@[simp] theorem State.driveSucceeds_draws (s : State) (x : Line) (high : Bool) :
    (s.driveSucceeds x high).draws = s.draws := rfl

/-! `State.driveFails` (R176). -/

@[simp] theorem State.driveFails_cfg (s : State) (x : Line) (high : Bool) :
    (s.driveFails x high).cfg = s.cfg := rfl
@[simp] theorem State.driveFails_bits (s : State) (x : Line) (high : Bool) :
    (s.driveFails x high).bits = s.bits := rfl
@[simp] theorem State.driveFails_lines (s : State) (x : Line) (high : Bool) :
    (s.driveFails x high).lines = s.lines.set x (s.drawnLevel x (Level.ofBool high)) := rfl
@[simp] theorem State.driveFails_outputEnabled (s : State) (x : Line) (high : Bool) :
    (s.driveFails x high).outputEnabled = s.outputEnabled := rfl
@[simp] theorem State.driveFails_mode (s : State) (x : Line) (high : Bool) :
    (s.driveFails x high).mode = s.mode := rfl
@[simp] theorem State.driveFails_cur (s : State) (x : Line) (high : Bool) :
    (s.driveFails x high).cur = s.cur := rfl
@[simp] theorem State.driveFails_upc (s : State) (x : Line) (high : Bool) :
    (s.driveFails x high).upc = s.upc := rfl
@[simp] theorem State.driveFails_perr (s : State) (x : Line) (high : Bool) :
    (s.driveFails x high).perr = s.perr := rfl
@[simp] theorem State.driveFails_pf (s : State) (x : Line) (high : Bool) :
    (s.driveFails x high).pf = true := rfl
@[simp] theorem State.driveFails_rsp (s : State) (x : Line) (high : Bool) :
    (s.driveFails x high).rsp = s.rsp := rfl
@[simp] theorem State.driveFails_chain (s : State) (x : Line) (high : Bool) :
    (s.driveFails x high).chain = s.chain.react s.cfg s.lines (s.lines.set x (s.drawnLevel x (Level.ofBool high))) x := rfl
@[simp] theorem State.driveFails_trace (s : State) (x : Line) (high : Bool) :
    (s.driveFails x high).trace = s.trace ++ [.wf x (Level.ofBool high)] := rfl
@[simp] theorem State.driveFails_responses (s : State) (x : Line) (high : Bool) :
    (s.driveFails x high).responses = s.responses := rfl
@[simp] theorem State.driveFails_host (s : State) (x : Line) (high : Bool) :
    (s.driveFails x high).host = s.host := rfl
@[simp] theorem State.driveFails_pinErr (s : State) (x : Line) (high : Bool) :
    (s.driveFails x high).pinErr = s.pinErr := rfl
@[simp] theorem State.driveFails_draws (s : State) (x : Line) (high : Bool) :
    (s.driveFails x high).draws = s.draws + 1 := rfl

/-! `State.askedOracle` (R176). -/

@[simp] theorem State.askedOracle_cfg (s : State) :
    s.askedOracle.cfg = s.cfg := rfl
@[simp] theorem State.askedOracle_bits (s : State) :
    s.askedOracle.bits = s.bits := rfl
@[simp] theorem State.askedOracle_lines (s : State) :
    s.askedOracle.lines = s.lines := rfl
@[simp] theorem State.askedOracle_outputEnabled (s : State) :
    s.askedOracle.outputEnabled = s.outputEnabled := rfl
@[simp] theorem State.askedOracle_mode (s : State) :
    s.askedOracle.mode = s.mode := rfl
@[simp] theorem State.askedOracle_cur (s : State) :
    s.askedOracle.cur = s.cur := rfl
@[simp] theorem State.askedOracle_upc (s : State) :
    s.askedOracle.upc = s.upc := rfl
@[simp] theorem State.askedOracle_perr (s : State) :
    s.askedOracle.perr = s.perr := rfl
@[simp] theorem State.askedOracle_pf (s : State) :
    s.askedOracle.pf = s.pf := rfl
@[simp] theorem State.askedOracle_rsp (s : State) :
    s.askedOracle.rsp = s.rsp := rfl
@[simp] theorem State.askedOracle_chain (s : State) :
    s.askedOracle.chain = s.chain := rfl
@[simp] theorem State.askedOracle_trace (s : State) :
    s.askedOracle.trace = s.trace := rfl
@[simp] theorem State.askedOracle_responses (s : State) :
    s.askedOracle.responses = s.responses := rfl
@[simp] theorem State.askedOracle_host (s : State) :
    s.askedOracle.host = s.host := rfl
@[simp] theorem State.askedOracle_pinErr (s : State) :
    s.askedOracle.pinErr = if s.cfg.pinFault then s.pinErr.tail else s.pinErr := rfl
@[simp] theorem State.askedOracle_draws (s : State) :
    s.askedOracle.draws = s.draws := rfl

/-! `State.zeroBank` (R134, R191). -/

@[simp] theorem State.zeroBank_cfg (s : State) :
    s.zeroBank.cfg = s.cfg := rfl
@[simp] theorem State.zeroBank_bits (s : State) :
    s.zeroBank.bits = [] := rfl
@[simp] theorem State.zeroBank_lines (s : State) :
    s.zeroBank.lines = s.lines := rfl
@[simp] theorem State.zeroBank_outputEnabled (s : State) :
    s.zeroBank.outputEnabled = s.outputEnabled := rfl
@[simp] theorem State.zeroBank_mode (s : State) :
    s.zeroBank.mode = s.mode := rfl
@[simp] theorem State.zeroBank_cur (s : State) :
    s.zeroBank.cur = s.cur := rfl
@[simp] theorem State.zeroBank_upc (s : State) :
    s.zeroBank.upc = s.upc := rfl
@[simp] theorem State.zeroBank_perr (s : State) :
    s.zeroBank.perr = s.perr := rfl
@[simp] theorem State.zeroBank_pf (s : State) :
    s.zeroBank.pf = s.pf := rfl
@[simp] theorem State.zeroBank_rsp (s : State) :
    s.zeroBank.rsp = s.rsp := rfl
@[simp] theorem State.zeroBank_chain (s : State) :
    s.zeroBank.chain = s.chain := rfl
@[simp] theorem State.zeroBank_trace (s : State) :
    s.zeroBank.trace = s.trace := rfl
@[simp] theorem State.zeroBank_responses (s : State) :
    s.zeroBank.responses = s.responses := rfl
@[simp] theorem State.zeroBank_host (s : State) :
    s.zeroBank.host = s.host := rfl
@[simp] theorem State.zeroBank_pinErr (s : State) :
    s.zeroBank.pinErr = s.pinErr := rfl
@[simp] theorem State.zeroBank_draws (s : State) :
    s.zeroBank.draws = s.draws := rfl

/-! `State.startSequence` (R112). -/

@[simp] theorem State.startSequence_cfg (s : State) (c : Cur) :
    (s.startSequence c).cfg = s.cfg := rfl
@[simp] theorem State.startSequence_bits (s : State) (c : Cur) :
    (s.startSequence c).bits = s.bits := rfl
@[simp] theorem State.startSequence_lines (s : State) (c : Cur) :
    (s.startSequence c).lines = s.lines := rfl
@[simp] theorem State.startSequence_outputEnabled (s : State) (c : Cur) :
    (s.startSequence c).outputEnabled = s.outputEnabled := rfl
@[simp] theorem State.startSequence_mode (s : State) (c : Cur) :
    (s.startSequence c).mode = .busy := rfl
@[simp] theorem State.startSequence_cur (s : State) (c : Cur) :
    (s.startSequence c).cur = c := rfl
@[simp] theorem State.startSequence_upc (s : State) (c : Cur) :
    (s.startSequence c).upc = 0 := rfl
@[simp] theorem State.startSequence_perr (s : State) (c : Cur) :
    (s.startSequence c).perr = s.perr := rfl
@[simp] theorem State.startSequence_pf (s : State) (c : Cur) :
    (s.startSequence c).pf = s.pf := rfl
@[simp] theorem State.startSequence_rsp (s : State) (c : Cur) :
    (s.startSequence c).rsp = s.rsp := rfl
@[simp] theorem State.startSequence_chain (s : State) (c : Cur) :
    (s.startSequence c).chain = s.chain := rfl
@[simp] theorem State.startSequence_trace (s : State) (c : Cur) :
    (s.startSequence c).trace = s.trace := rfl
@[simp] theorem State.startSequence_responses (s : State) (c : Cur) :
    (s.startSequence c).responses = s.responses := rfl
@[simp] theorem State.startSequence_host (s : State) (c : Cur) :
    (s.startSequence c).host = s.host := rfl
@[simp] theorem State.startSequence_pinErr (s : State) (c : Cur) :
    (s.startSequence c).pinErr = s.pinErr := rfl
@[simp] theorem State.startSequence_draws (s : State) (c : Cur) :
    (s.startSequence c).draws = s.draws := rfl

/-! `State.assertRst` (R190). -/

@[simp] theorem State.assertRst_cfg (s : State) (avail : Bool) :
    (s.assertRst avail).cfg = { s.cfg with ctrlAvail := avail } := rfl
@[simp] theorem State.assertRst_bits (s : State) (avail : Bool) :
    (s.assertRst avail).bits = [] := rfl
@[simp] theorem State.assertRst_lines (s : State) (avail : Bool) :
    (s.assertRst avail).lines = Lines.released := rfl
@[simp] theorem State.assertRst_outputEnabled (s : State) (avail : Bool) :
    (s.assertRst avail).outputEnabled = !s.cfg.oeBound := rfl
@[simp] theorem State.assertRst_mode (s : State) (avail : Bool) :
    (s.assertRst avail).mode = .init := rfl
@[simp] theorem State.assertRst_cur (s : State) (avail : Bool) :
    (s.assertRst avail).cur = .init := rfl
@[simp] theorem State.assertRst_upc (s : State) (avail : Bool) :
    (s.assertRst avail).upc = 0 := rfl
@[simp] theorem State.assertRst_perr (s : State) (avail : Bool) :
    (s.assertRst avail).perr = false := rfl
@[simp] theorem State.assertRst_pf (s : State) (avail : Bool) :
    (s.assertRst avail).pf = false := rfl
@[simp] theorem State.assertRst_rsp (s : State) (avail : Bool) :
    (s.assertRst avail).rsp = none := rfl
@[simp] theorem State.assertRst_chain (s : State) (avail : Bool) :
    (s.assertRst avail).chain = s.chain := rfl
@[simp] theorem State.assertRst_trace (s : State) (avail : Bool) :
    (s.assertRst avail).trace = [] := rfl
@[simp] theorem State.assertRst_responses (s : State) (avail : Bool) :
    (s.assertRst avail).responses = [] := rfl
@[simp] theorem State.assertRst_host (s : State) (avail : Bool) :
    (s.assertRst avail).host = s.host := rfl
@[simp] theorem State.assertRst_pinErr (s : State) (avail : Bool) :
    (s.assertRst avail).pinErr = s.pinErr := rfl
@[simp] theorem State.assertRst_draws (s : State) (avail : Bool) :
    (s.assertRst avail).draws = s.draws := rfl

/-! `State.clearRsp` (R32). -/

@[simp] theorem State.clearRsp_cfg (s : State) :
    s.clearRsp.cfg = s.cfg := rfl
@[simp] theorem State.clearRsp_bits (s : State) :
    s.clearRsp.bits = s.bits := rfl
@[simp] theorem State.clearRsp_lines (s : State) :
    s.clearRsp.lines = s.lines := rfl
@[simp] theorem State.clearRsp_outputEnabled (s : State) :
    s.clearRsp.outputEnabled = s.outputEnabled := rfl
@[simp] theorem State.clearRsp_mode (s : State) :
    s.clearRsp.mode = s.mode := rfl
@[simp] theorem State.clearRsp_cur (s : State) :
    s.clearRsp.cur = s.cur := rfl
@[simp] theorem State.clearRsp_upc (s : State) :
    s.clearRsp.upc = s.upc := rfl
@[simp] theorem State.clearRsp_perr (s : State) :
    s.clearRsp.perr = s.perr := rfl
@[simp] theorem State.clearRsp_pf (s : State) :
    s.clearRsp.pf = s.pf := rfl
@[simp] theorem State.clearRsp_rsp (s : State) :
    s.clearRsp.rsp = none := rfl
@[simp] theorem State.clearRsp_chain (s : State) :
    s.clearRsp.chain = s.chain := rfl
@[simp] theorem State.clearRsp_trace (s : State) :
    s.clearRsp.trace = s.trace := rfl
@[simp] theorem State.clearRsp_responses (s : State) :
    s.clearRsp.responses = s.responses := rfl
@[simp] theorem State.clearRsp_host (s : State) :
    s.clearRsp.host = s.host := rfl
@[simp] theorem State.clearRsp_pinErr (s : State) :
    s.clearRsp.pinErr = s.pinErr := rfl
@[simp] theorem State.clearRsp_draws (s : State) :
    s.clearRsp.draws = s.draws := rfl

/-! `State.popHost` (R185). -/

@[simp] theorem State.popHost_cfg (s : State) :
    s.popHost.cfg = s.cfg := rfl
@[simp] theorem State.popHost_bits (s : State) :
    s.popHost.bits = s.bits := rfl
@[simp] theorem State.popHost_lines (s : State) :
    s.popHost.lines = s.lines := rfl
@[simp] theorem State.popHost_outputEnabled (s : State) :
    s.popHost.outputEnabled = s.outputEnabled := rfl
@[simp] theorem State.popHost_mode (s : State) :
    s.popHost.mode = s.mode := rfl
@[simp] theorem State.popHost_cur (s : State) :
    s.popHost.cur = s.cur := rfl
@[simp] theorem State.popHost_upc (s : State) :
    s.popHost.upc = s.upc := rfl
@[simp] theorem State.popHost_perr (s : State) :
    s.popHost.perr = s.perr := rfl
@[simp] theorem State.popHost_pf (s : State) :
    s.popHost.pf = s.pf := rfl
@[simp] theorem State.popHost_rsp (s : State) :
    s.popHost.rsp = s.rsp := rfl
@[simp] theorem State.popHost_chain (s : State) :
    s.popHost.chain = s.chain := rfl
@[simp] theorem State.popHost_trace (s : State) :
    s.popHost.trace = s.trace := rfl
@[simp] theorem State.popHost_responses (s : State) :
    s.popHost.responses = s.responses := rfl
@[simp] theorem State.popHost_host (s : State) :
    s.popHost.host = s.host.tail := rfl
@[simp] theorem State.popHost_pinErr (s : State) :
    s.popHost.pinErr = s.pinErr := rfl
@[simp] theorem State.popHost_draws (s : State) :
    s.popHost.draws = s.draws := rfl

/-! `State.hostWaits` (R32, R185): only the host's moves change. -/

@[simp] theorem State.hostWaits_cfg (s : State) : s.hostWaits.cfg = s.cfg := by
  unfold State.hostWaits; split <;> rfl
@[simp] theorem State.hostWaits_bits (s : State) : s.hostWaits.bits = s.bits := by
  unfold State.hostWaits; split <;> rfl
@[simp] theorem State.hostWaits_lines (s : State) : s.hostWaits.lines = s.lines := by
  unfold State.hostWaits; split <;> rfl
@[simp] theorem State.hostWaits_outputEnabled (s : State) : s.hostWaits.outputEnabled = s.outputEnabled := by
  unfold State.hostWaits; split <;> rfl
@[simp] theorem State.hostWaits_mode (s : State) : s.hostWaits.mode = s.mode := by
  unfold State.hostWaits; split <;> rfl
@[simp] theorem State.hostWaits_cur (s : State) : s.hostWaits.cur = s.cur := by
  unfold State.hostWaits; split <;> rfl
@[simp] theorem State.hostWaits_upc (s : State) : s.hostWaits.upc = s.upc := by
  unfold State.hostWaits; split <;> rfl
@[simp] theorem State.hostWaits_perr (s : State) : s.hostWaits.perr = s.perr := by
  unfold State.hostWaits; split <;> rfl
@[simp] theorem State.hostWaits_pf (s : State) : s.hostWaits.pf = s.pf := by
  unfold State.hostWaits; split <;> rfl
@[simp] theorem State.hostWaits_rsp (s : State) : s.hostWaits.rsp = s.rsp := by
  unfold State.hostWaits; split <;> rfl
@[simp] theorem State.hostWaits_chain (s : State) : s.hostWaits.chain = s.chain := by
  unfold State.hostWaits; split <;> rfl
@[simp] theorem State.hostWaits_trace (s : State) : s.hostWaits.trace = s.trace := by
  unfold State.hostWaits; split <;> rfl
@[simp] theorem State.hostWaits_responses (s : State) : s.hostWaits.responses = s.responses := by
  unfold State.hostWaits; split <;> rfl
@[simp] theorem State.hostWaits_pinErr (s : State) : s.hostWaits.pinErr = s.pinErr := by
  unfold State.hostWaits; split <;> rfl
@[simp] theorem State.hostWaits_draws (s : State) : s.hostWaits.draws = s.draws := by
  unfold State.hostWaits; split <;> rfl

/-- `hostWaits` as one record update. -/
theorem State.hostWaits_eq (s : State) : s.hostWaits = { s with host := s.hostWaits.host } := by
  unfold State.hostWaits; split <;> rfl

/-! `Lines.set` and `Lines.get` (R24): a written line holds the level, every other line its own. -/

@[simp] theorem Lines.get_set_same (ln : Lines) (x : Line) (v : Level) : (ln.set x v).get x = v := by
  cases x <;> rfl

theorem Lines.get_set_other (ln : Lines) {x y : Line} (v : Level) (h : y ≠ x) :
    (ln.set x v).get y = ln.get y := by
  cases x <;> cases y <;> first | rfl | exact absurd rfl h

end Sys2Proof.Machine
end

