-- ==== Sys2Proof/Laws/Step.lean ====
section
/-! SUPPORT. What the shared operations, the controller's step and the machine's step can do, each said once:
the later proofs cite these and do not unfold the step. -/

namespace Sys2Proof.Machine

/-! Acceptance (R27, R32, R6). -/

theorem State.accept_idle {s : State} (f : State → State) (hc : s.cfg.wf = true) (hm : s.mode = .idle) :
    s.accept f = .next (f s) := by
  unfold State.accept; rw [if_pos hc, if_pos hm]

theorem State.accept_not_idle {s : State} (f : State → State) (hc : s.cfg.wf = true) (hm : s.mode ≠ .idle) :
    s.accept f = .next s := by
  unfold State.accept; rw [if_pos hc, if_neg hm]

theorem State.accept_illFormed {s : State} (f : State → State) (hc : s.cfg.wf = false) :
    s.accept f = .refused .illFormedConfig := by
  unfold State.accept; rw [if_neg (by simp [hc])]

/-- If acceptance answers a next state, the command ran in `IDLE` or nothing changed. -/
theorem State.accept_cases {s t : State} {f : State → State} (h : s.accept f = .next t) :
    s.cfg.wf = true ∧ ((s.mode = .idle ∧ t = f s) ∨ (s.mode ≠ .idle ∧ t = s)) := by
  unfold State.accept at h
  split at h
  · rename_i hc
    refine ⟨hc, ?_⟩
    split at h
    · rename_i hm
      exact .inl ⟨hm, by injection h with h; exact h.symm⟩
    · rename_i hm
      exact .inr ⟨hm, by injection h with h; exact h.symm⟩
  · cases h

/-! Drive (R12, R176). -/

/-- A `Drive` succeeds or fails, as the oracle says. -/
theorem State.drive_eq (s : State) (x : Line) (high : Bool) :
    s.drive x high =
      if s.writeFails then .failed (s.askedOracle.driveFails x high)
      else .done (s.askedOracle.driveSucceeds x high) := rfl

/-- Without `PINFAULT` no write fails and the oracle is not asked. -/
theorem State.writeFails_eq_false {s : State} (h : s.cfg.pinFault = false) : s.writeFails = false := by
  simp [State.writeFails, h]

theorem State.askedOracle_eq_self {s : State} (h : s.cfg.pinFault = false) : s.askedOracle = s := by
  simp [State.askedOracle, h]

/-- A failed write needs `PINFAULT`. -/
theorem State.pinFault_of_writeFails {s : State} (h : s.writeFails = true) : s.cfg.pinFault = true := by
  unfold State.writeFails at h
  simp only [Bool.and_eq_true] at h
  exact h.1

/-- The level a failed write leaves is the old one or the one written (R176). -/
theorem State.drawnLevel_cases (s : State) (x : Line) (v : Level) :
    s.drawnLevel x v = v ∨ s.drawnLevel x v = s.lines.get x := by
  unfold State.drawnLevel
  split
  · exact .inl rfl
  · exact .inr rfl

/-! The micro-operations' state actions: only the bank can change. -/

theorem State.before_eq (s : State) (op : MicroOp) :
    s.before op = { s with bits := if op.zeroesBefore then [] else s.bits } := by
  unfold State.before; split <;> rfl

theorem State.after_eq (s : State) (op : MicroOp) :
    s.after op = { s with bits := if op.zeroesAfter then [] else s.bits } := by
  unfold State.after; split <;> rfl

/-! The controller's step (R112). -/

/-- If the controller's step answers a next state: a micro-operation was performed, its write succeeded or failed,
or the test of `ctrlAvail` failed. -/
theorem State.controllerStep_cases {s t : State} (h : s.controllerStep = .next t) :
    ∃ op, s.microOp = some op ∧
      ((op.testsCtrl = true ∧ s.cfg.ctrlAvail = false ∧ t = s.toFailed) ∨
       (¬(op.testsCtrl = true ∧ s.cfg.ctrlAvail = false) ∧ (s.before op).writeFails = false ∧
          t = (((s.before op).askedOracle.driveSucceeds op.line op.high).after op).advance) ∨
       (¬(op.testsCtrl = true ∧ s.cfg.ctrlAvail = false) ∧ (s.before op).writeFails = true ∧
          t = ((s.before op).askedOracle.driveFails op.line op.high).abandon)) := by
  unfold State.controllerStep at h
  split at h
  · cases h
  · rename_i op hop
    refine ⟨op, hop, ?_⟩
    unfold State.perform at h
    split at h
    · rename_i u hu
      split at hu
      · cases hu
      · rename_i htest
        rw [State.drive_eq] at hu
        by_cases hw : (s.before op).writeFails = true
        · simp [hw] at hu
        · simp only [hw, Bool.false_eq_true, if_false] at hu
          injection hu with hu
          injection h with h
          exact .inr (.inl ⟨by simpa using htest, by simpa using hw, by rw [← h, ← hu]⟩)
    · rename_i u hu
      split at hu
      · cases hu
      · rename_i htest
        rw [State.drive_eq] at hu
        by_cases hw : (s.before op).writeFails = true
        · simp only [hw, if_true] at hu
          injection hu with hu
          injection h with h
          exact .inr (.inr ⟨by simpa using htest, hw, by rw [← h, ← hu]⟩)
        · simp [hw] at hu
    · rename_i u hu
      split at hu
      · rename_i htest
        injection hu with hu
        injection h with h
        simp only [Bool.and_eq_true, Bool.not_eq_true'] at htest
        exact .inl ⟨htest.1, htest.2, by rw [← h, ← hu]⟩
      · rw [State.drive_eq] at hu
        split at hu <;> cases hu

/-- The controller's step when the test passes and the write succeeds. -/
theorem State.controllerStep_succeeds {s : State} {op : MicroOp} (hop : s.microOp = some op)
    (htest : op.testsCtrl = true → s.cfg.ctrlAvail = true) (hw : s.writeFails = false) :
    s.controllerStep =
      .next (((s.before op).askedOracle.driveSucceeds op.line op.high).after op).advance := by
  have hb : (s.before op).writeFails = false := by
    rw [State.before_eq]; exact hw
  have ht : (op.testsCtrl && !s.cfg.ctrlAvail) = false := by
    cases h1 : op.testsCtrl <;> simp_all
  unfold State.controllerStep State.perform
  simp only [hop, ht, Bool.false_eq_true, if_false, State.drive_eq, hb]

/-- The controller's step when the test passes and the write fails (R176). -/
theorem State.controllerStep_fails {s : State} {op : MicroOp} (hop : s.microOp = some op)
    (htest : op.testsCtrl = true → s.cfg.ctrlAvail = true) (hw : s.writeFails = true) :
    s.controllerStep = .next ((s.before op).askedOracle.driveFails op.line op.high).abandon := by
  have hb : (s.before op).writeFails = true := by
    rw [State.before_eq]; exact hw
  have ht : (op.testsCtrl && !s.cfg.ctrlAvail) = false := by
    cases h1 : op.testsCtrl <;> simp_all
  unfold State.controllerStep State.perform
  simp only [hop, ht, Bool.false_eq_true, if_false, State.drive_eq, hb, if_true]

/-! The machine's step. -/

theorem State.presented_eq_some {s : State} {w : Word} :
    s.presented = some w ↔ ∃ rest, s.presents w rest := by
  unfold State.presented State.presents
  split <;> simp_all

theorem State.rstAsserted_eq_true {s : State} :
    s.rstAsserted = true ↔ ∃ avail rest, s.host = .reset avail :: rest := by
  unfold State.rstAsserted
  split
  · simp_all
  · rename_i hne
    constructor
    · intro h; cases h
    · rintro ⟨avail, rest, h⟩
      exact absurd h (hne avail rest)

/-- The step with `rst` asserted (R190). -/
theorem step_reset {s : State} {avail : Bool} {rest : List HostMove} (hc : s.cfg.wf = true)
    (hh : s.host = .reset avail :: rest) : step s = .next (s.popHost.assertRst avail) := by
  unfold step State.cycle
  rw [if_pos hc, hh]

/-- The step without `rst`: the block's part, on a state in which no response is presented. -/
theorem step_no_reset {s : State} (hc : s.cfg.wf = true) (hr : s.rstAsserted = false) :
    step s = s.clearRsp.run := by
  unfold step State.cycle
  rw [if_pos hc]
  split
  · rename_i avail rest hh
    rw [State.rstAsserted_eq_true.2 ⟨avail, rest, hh⟩] at hr
    cases hr
  · rfl

/-- In `INIT` and `BUSY` the step is the controller's. -/
theorem step_controller {s : State} (hc : s.cfg.wf = true) (hr : s.rstAsserted = false)
    (hm : s.mode = .init ∨ s.mode = .busy) : step s = s.clearRsp.hostWaits.controllerStep := by
  rw [step_no_reset hc hr]
  unfold State.run
  rcases hm with hm | hm <;> rw [State.clearRsp_mode, hm]

/-- What one step can do: a reset; a controller's step; a command executed; an illegal word answered; or nothing
but the host's move. -/
theorem step_cases {s t : State} (h : step s = .next t) :
    s.cfg.wf = true ∧
      ((∃ avail rest, s.host = .reset avail :: rest ∧ t = s.popHost.assertRst avail) ∨
       (s.rstAsserted = false ∧ (s.mode = .init ∨ s.mode = .busy) ∧
          s.clearRsp.hostWaits.controllerStep = .next t) ∨
       (s.rstAsserted = false ∧ s.mode = .idle ∧ ∃ w rest i, s.presents w rest ∧ decodeWord w = .ok i ∧
          exec i s.clearRsp.popHost = .next t) ∨
       (s.rstAsserted = false ∧ s.mode = .idle ∧ ∃ w rest e, s.presents w rest ∧ decodeWord w = .error e ∧
          t = s.clearRsp.popHost.raise .illegal w) ∨
       (s.rstAsserted = false ∧ (s.mode = .idle ∧ s.presented = none ∨ s.mode = .failed) ∧
          t = s.clearRsp.hostWaits)) := by
  by_cases hc : s.cfg.wf = true
  · refine ⟨hc, ?_⟩
    by_cases hr : s.rstAsserted = true
    · obtain ⟨avail, rest, hh⟩ := State.rstAsserted_eq_true.1 hr
      rw [step_reset hc hh] at h
      injection h with h
      exact .inl ⟨avail, rest, hh, h.symm⟩
    · have hr : s.rstAsserted = false := by simpa using hr
      rw [step_no_reset hc hr] at h
      have hm : s.clearRsp.mode = s.mode := rfl
      unfold State.run at h
      rw [hm] at h
      split at h
      · exact .inr (.inl ⟨hr, .inl ‹_›, h⟩)
      · exact .inr (.inl ⟨hr, .inr ‹_›, h⟩)
      · rename_i hmode
        split at h
        · rename_i w hw
          obtain ⟨rest, hp⟩ := State.presented_eq_some.1 hw
          unfold acceptWord at h
          split at h
          · rename_i i hi
            exact .inr (.inr (.inl ⟨hr, hmode, w, rest, i, hp, hi, h⟩))
          · rename_i e he
            injection h with h
            exact .inr (.inr (.inr (.inl ⟨hr, hmode, w, rest, e, hp, he, h.symm⟩)))
        · rename_i hn
          injection h with h
          exact .inr (.inr (.inr (.inr ⟨hr, .inl ⟨hmode, hn⟩, h.symm⟩)))
      · injection h with h
        exact .inr (.inr (.inr (.inr ⟨hr, .inr ‹_›, h.symm⟩)))
  · unfold step State.cycle at h
    rw [if_neg hc] at h
    cases h

end Sys2Proof.Machine
end

