-- ==== Sys2Proof/Laws/Sequencer.lean ====
section
/-! SUPPORT. What the micro-sequences hold (41_commit R111, 42_oe_mr_status R134, 70_reset R191), and what ending,
advancing and abandoning a sequence do (R112, R176). -/

namespace Sys2Proof.Machine

/-! CommitSeq (R111). -/

theorem commitOp_first (n : Nat) (bank : Memory) : commitOp n bank 0 = some (driveLow .stcp) := rfl

theorem commitOp_last (n : Nat) (bank : Memory) : commitOp n bank (24 * n + 1) = some (driveHigh .stcp) := by
  simp [commitOp]

/-- The three writes of group `g` (R111). -/
theorem commitOp_clockLow {n g : Nat} (bank : Memory) (hg : g < 8 * n) :
    commitOp n bank (3 * g + 1) = some (driveLow .shcp) := by
  have h1 : 3 * g + 1 ≤ 24 * n := by omega
  have h2 : (3 * g + 1 - 1) % 3 = 0 := by omega
  unfold commitOp
  rw [if_neg (by omega), if_pos h1, h2]
  rfl

theorem commitOp_data {n g : Nat} (bank : Memory) (hg : g < 8 * n) :
    commitOp n bank (3 * g + 2) = some (driveData (bank.bitRead (8 * n - 1 - g))) := by
  have h1 : 3 * g + 2 ≤ 24 * n := by omega
  have h2 : (3 * g + 2 - 1) % 3 = 1 := by omega
  have h3 : (3 * g + 2 - 1) / 3 = g := by omega
  unfold commitOp
  rw [if_neg (by omega), if_pos h1, h2, h3]
  rfl

theorem commitOp_clockHigh {n g : Nat} (bank : Memory) (hg : g < 8 * n) :
    commitOp n bank (3 * g + 3) = some (driveHigh .shcp) := by
  have h1 : 3 * g + 3 ≤ 24 * n := by omega
  have h2 : (3 * g + 3 - 1) % 3 = 2 := by omega
  unfold commitOp
  rw [if_neg (by omega), if_pos h1, h2]
  rfl

/-- The micro-operations of CommitSeq. -/
theorem commitOp_cases {n : Nat} {bank : Memory} {k : Nat} {op : MicroOp} (h : commitOp n bank k = some op) :
    (k = 0 ∧ op = driveLow .stcp) ∨
      (0 < k ∧ k ≤ 24 * n ∧ (op = driveLow .shcp ∨ (∃ b, op = driveData b) ∨ op = driveHigh .shcp)) ∨
      (k = 24 * n + 1 ∧ op = driveHigh .stcp) := by
  unfold commitOp at h
  split at h
  · injection h with h
    exact .inl ⟨‹_›, h.symm⟩
  · split at h
    · refine .inr (.inl ⟨by omega, ‹_›, ?_⟩)
      split at h <;> injection h with h
      · exact .inl h.symm
      · exact .inr (.inl ⟨_, h.symm⟩)
      · exact .inr (.inr h.symm)
    · split at h
      · injection h with h
        exact .inr (.inr ⟨‹_›, h.symm⟩)
      · cases h

/-- CommitSeq has a micro-operation exactly at the positions below its length. -/
theorem commitOp_isSome {n : Nat} {bank : Memory} {k : Nat} :
    (commitOp n bank k).isSome = true ↔ k < commitLen n := by
  unfold commitOp commitLen
  split
  · simp; omega
  · split
    · have : k < 24 * n + 2 := by omega
      simp only [this, iff_true]
      split <;> rfl
    · split
      · simp; omega
      · simp; omega

/-- A micro-operation of CommitSeq is a plain `Drive` of one of the three mandatory lines. -/
theorem commitOp_plain {n : Nat} {bank : Memory} {k : Nat} {op : MicroOp} (h : commitOp n bank k = some op) :
    op.testsCtrl = false ∧ op.zeroesBefore = false ∧ op.zeroesAfter = false ∧ op.line ≠ .oe ∧ op.line ≠ .mr := by
  rcases commitOp_cases h with ⟨-, rfl⟩ | ⟨-, -, rfl | ⟨b, rfl⟩ | rfl⟩ | ⟨-, rfl⟩ <;>
    simp [driveLow, driveHigh, driveData]

/-! MresetSeq (R134). -/

theorem mresetOp_cases {cfg : Cfg} {bank : Memory} {k : Nat} {op : MicroOp}
    (h : mresetOp cfg bank k = some op) :
    cfg.mrBound = true ∧
      ((k = 0 ∧ op = { driveLow .mr with zeroesAfter := true }) ∨
        (0 < k ∧ k ≤ 24 * cfg.n + 2 ∧ commitOp cfg.n bank (k - 1) = some op) ∨
        (k = 24 * cfg.n + 3 ∧ op = driveHigh .mr)) := by
  unfold mresetOp at h
  split at h
  · refine ⟨‹_›, ?_⟩
    split at h
    · injection h with h
      exact .inl ⟨‹_›, h.symm⟩
    · split at h
      · exact .inr (.inl ⟨by omega, ‹_›, h⟩)
      · split at h
        · injection h with h
          exact .inr (.inr ⟨‹_›, h.symm⟩)
        · cases h
  · cases h

theorem mresetOp_isSome {cfg : Cfg} {bank : Memory} {k : Nat} (hb : cfg.mrBound = true)
    (hk : k < mresetLen cfg.n) : (mresetOp cfg bank k).isSome = true := by
  unfold mresetLen at hk
  unfold mresetOp
  rw [if_pos hb]
  split
  · rfl
  · split
    · exact commitOp_isSome.2 (by unfold commitLen; omega)
    · rw [if_pos (by omega)]
      rfl

/-! InitSeq (R191). -/

theorem initPrefixLen_le (cfg : Cfg) : 3 ≤ initPrefixLen cfg ∧ initPrefixLen cfg ≤ 5 := by
  unfold initPrefixLen
  cases cfg.oeBound <;> cases cfg.mrBound <;> decide

theorem initOptional_length (cfg : Cfg) :
    (initOptional cfg).length = cfg.oeBound.toNat + cfg.mrBound.toNat := by
  unfold initOptional
  cases cfg.oeBound <;> cases cfg.mrBound <;> rfl

theorem initOp_cases {cfg : Cfg} {bank : Memory} {k : Nat} {op : MicroOp} (h : initOp cfg bank k = some op) :
    (k = 0 ∧ op = { driveLow .ds with testsCtrl := true }) ∨ (k = 1 ∧ op = driveLow .stcp) ∨
      (k = 2 ∧ op = driveLow .shcp) ∨ (cfg.oeBound = true ∧ k = 3 ∧ op = driveHigh .oe) ∨
      (cfg.mrBound = true ∧ k = 3 + cfg.oeBound.toNat ∧ op = driveHigh .mr) ∨
      (k = initPrefixLen cfg ∧ op = { driveLow .stcp with zeroesBefore := true }) ∨
      (initPrefixLen cfg < k ∧ commitOp cfg.n bank (k - initPrefixLen cfg) = some op) := by
  unfold initOp at h
  split at h
  · injection h with h
    exact .inl ⟨‹_›, h.symm⟩
  split at h
  · injection h with h
    exact .inr (.inl ⟨‹_›, h.symm⟩)
  split at h
  · injection h with h
    exact .inr (.inr (.inl ⟨‹_›, h.symm⟩))
  split at h
  · rename_i h0 h1 h2 hlt
    unfold initPrefixLen at hlt
    unfold initOptional at h
    have hk : k = 3 ∨ k = 4 := by
      have := Bool.toNat_le cfg.oeBound
      have := Bool.toNat_le cfg.mrBound
      omega
    rcases hk with rfl | rfl
    · cases ho : cfg.oeBound <;> cases hm : cfg.mrBound <;> simp [ho, hm] at h <;> simp_all
    · cases ho : cfg.oeBound <;> cases hm : cfg.mrBound <;> simp [ho, hm] at h <;> simp_all
  split at h
  · rw [commitOp_first] at h
    injection h with h
    exact .inr (.inr (.inr (.inr (.inr (.inl ⟨‹_›, h.symm⟩)))))
  · exact .inr (.inr (.inr (.inr (.inr (.inr ⟨by omega, h⟩)))))

theorem initOp_isSome {cfg : Cfg} {bank : Memory} {k : Nat} (hk : k < initLen cfg) :
    (initOp cfg bank k).isSome = true := by
  unfold initLen at hk
  unfold initOp
  split
  · rfl
  split
  · rfl
  split
  · rfl
  split
  · rename_i hlt
    rw [Option.isSome_map]
    unfold initPrefixLen at hlt
    have : k - 3 < (initOptional cfg).length := by
      rw [initOptional_length]
      omega
    simp [this]
  split
  · rfl
  · exact commitOp_isSome.2 (by unfold commitLen; omega)

/-! The ends of a sequence (R112, R176). -/

/-- Advancing: one position further, or the end of the sequence. -/
theorem State.advance_eq (s : State) :
    s.advance =
      if s.upc + 1 = s.seqLen then
        match s.cur.command with
        | some w => (s.respond w .ok 0).toIdle
        | none => s.toIdle
      else { s with upc := s.upc + 1 } := by
  unfold State.advance State.finish
  split
  · cases s.cur.command <;> rfl
  · rfl

/-- The fields an advance leaves alone, wherever in the sequence. -/
theorem State.advance_frame (s : State) :
    s.advance.cfg = s.cfg ∧ s.advance.bits = s.bits ∧ s.advance.lines = s.lines ∧
      s.advance.outputEnabled = s.outputEnabled ∧ s.advance.perr = s.perr ∧ s.advance.pf = s.pf ∧
      s.advance.chain = s.chain ∧ s.advance.trace = s.trace ∧ s.advance.host = s.host ∧
      s.advance.pinErr = s.pinErr ∧ s.advance.draws = s.draws := by
  rw [State.advance_eq]
  split
  · split <;> simp
  · simp

/-- The fields an abandoned sequence leaves alone. -/
theorem State.abandon_frame (s : State) :
    s.abandon.cfg = s.cfg ∧ s.abandon.bits = s.bits ∧ s.abandon.lines = s.lines ∧
      s.abandon.outputEnabled = s.outputEnabled ∧ s.abandon.perr = s.perr ∧ s.abandon.pf = s.pf ∧
      s.abandon.chain = s.chain ∧ s.abandon.trace = s.trace ∧ s.abandon.host = s.host ∧
      s.abandon.pinErr = s.pinErr ∧ s.abandon.draws = s.draws := by
  unfold State.abandon
  split
  · simp
  · split <;> simp [State.raise]

/-- A failed write during construction: `FAILED`, no response (R176). -/
theorem State.abandon_init {s : State} (h : s.mode = .init) : s.abandon = s.toFailed := by
  unfold State.abandon
  rw [if_pos h]

/-- A failed write in a running command: `ERR_PIN` and `IDLE` (R176). -/
theorem State.abandon_command {s : State} {w : Word} (h : s.mode ≠ .init) (hw : s.cur.command = some w) :
    s.abandon = s.toIdle.respond w .errPin 0 := by
  unfold State.abandon
  rw [if_neg h, hw]
  rfl

end Sys2Proof.Machine
end

