-- ==== Sys2Proof/Laws/Commands.lean ====
section
/-! SUPPORT. Each command as one acceptance: what `exec` is, said once per command (40_bank_ops R90 to R93, 41_commit
R112, 42_oe_mr_status R131, R133, R136). With `State.accept_idle` and `State.accept_cases` this is all a proof about
a command needs. -/

namespace Sys2Proof.Machine

theorem exec_setbit (idx : Nat) (v : Bool) (s : State) :
    exec (.setbit idx v) s = s.accept fun s =>
      if bitInRange s.cfg idx then
        { s with bits := s.bits.bitWrite idx v }.respond (encode (.setbit idx v)) .ok 0
      else s.raise .range (encode (.setbit idx v)) := rfl

theorem exec_setall (v : Bool) (s : State) :
    exec (.setall v) s = s.accept fun s =>
      { s with bits := Memory.fill s.cfg.n (fillByte v) }.respond (encode (.setall v)) .ok 0 := rfl

theorem exec_getbit (idx : Nat) (s : State) :
    exec (.getbit idx) s = s.accept fun s =>
      if bitInRange s.cfg idx then s.respond (encode (.getbit idx)) .ok (zextBit (s.bits.bitRead idx))
      else s.raise .range (encode (.getbit idx)) := rfl

theorem exec_rdbyte (reg : Nat) (s : State) :
    exec (.rdbyte reg) s = s.accept fun s =>
      if regInRange s.cfg reg then s.respond (encode (.rdbyte reg)) .ok (zextByte (s.bits.read reg))
      else s.raise .range (encode (.rdbyte reg)) := rfl

theorem exec_commit (s : State) : exec .commit s = s.accept fun s => s.startSequence .commit := rfl

/-- SETOE with its one `Drive` resolved by the oracle (R131, R176). -/
theorem exec_setoe (v : Bool) (s : State) :
    exec (.setoe v) s = s.accept fun s =>
      if v = s.outputEnabled then s.respond (encode (.setoe v)) .ok 0
      else if s.cfg.oeBound then
        if s.writeFails then (s.askedOracle.driveFails .oe (!v)).raise .pinFault (encode (.setoe v))
        else { s.askedOracle.driveSucceeds .oe (!v) with outputEnabled := v }.respond (encode (.setoe v)) .ok 0
      else s.respond (encode (.setoe v)) .unavail 0 := by
  show execSetoe v s = _
  unfold execSetoe
  congr 1
  funext s
  rw [State.drive_eq]
  by_cases hw : s.writeFails = true <;> simp [hw]

theorem exec_mreset (s : State) :
    exec .mreset s = s.accept fun s =>
      if s.cfg.mrBound then s.startSequence .mreset else s.respond (encode .mreset) .unavail 0 := rfl

theorem exec_status (s : State) :
    exec .status s = s.accept fun s => s.respond (encode .status) .ok s.statusWord := rfl

/-- `exec` is one acceptance, whatever the command. -/
theorem exec_accept (i : Instr) : ∃ run : State → State, ∀ s, exec i s = s.accept run := by
  cases i with
  | setbit idx v => exact ⟨_, exec_setbit idx v⟩
  | setall v => exact ⟨_, exec_setall v⟩
  | getbit idx => exact ⟨_, exec_getbit idx⟩
  | rdbyte reg => exact ⟨_, exec_rdbyte reg⟩
  | commit => exact ⟨_, exec_commit⟩
  | setoe v => exact ⟨_, exec_setoe v⟩
  | mreset => exact ⟨_, exec_mreset⟩
  | status => exact ⟨_, exec_status⟩

end Sys2Proof.Machine
end

