-- ==== Sys2Proof/Laws/Memory.lean ====
section
/-! SUPPORT. The laws of the bank's memory: a read after a write, the canonical form kept by every operation, and
equality of canonical memories by their reads (20_memory R50 to R54). -/

namespace Sys2Proof.Machine

@[simp] theorem Memory.read_nil (r : Nat) : Memory.read [] r = 0 := rfl

theorem Memory.read_cell (a : Nat) (x : Byte) (m : Memory) (r : Nat) :
    Memory.read ((a, x) :: m) r = if a = r then x else Memory.read m r := rfl

theorem Memory.wf_tail {p : Host.Cell} {m : Memory} (h : Memory.wf (p :: m)) : Memory.wf m :=
  ⟨(List.pairwise_cons.1 h.1).2, fun q hq => h.2 q (List.mem_cons_of_mem _ hq)⟩

/-- A register below every listed one reads as an unlisted one. -/
theorem Memory.read_below {m : Memory} {r : Nat} (h : ∀ p ∈ m, r < p.1) : Memory.read m r = 0 := by
  induction m with
  | nil => rfl
  | cons p m ih =>
    have hp := h p (List.mem_cons_self ..)
    rw [show p = (p.1, p.2) from rfl, Memory.read_cell, if_neg (by omega)]
    exact ih fun q hq => h q (List.mem_cons_of_mem _ hq)

theorem Memory.above_of_wf {a : Nat} {x : Byte} {m : Memory} (h : Memory.wf ((a, x) :: m)) :
    ∀ p ∈ m, a < p.1 := (List.pairwise_cons.1 h.1).1

theorem Memory.read_cons (r : Nat) (v : Byte) (m : Memory) (k : Nat) (h : ∀ p ∈ m, r < p.1) :
    Memory.read (Memory.cons r v m) k = if k = r then v else Memory.read m k := by
  unfold Memory.cons
  split
  · rename_i hv
    split
    · rename_i hk
      rw [hk, Memory.read_below h, hv]
      rfl
    · rfl
  · rw [Memory.read_cell]
    by_cases hk : r = k
    · simp [hk]
    · rw [if_neg hk, if_neg (Ne.symm hk)]

/-- A read after a write (R11): the register written holds the byte, every other register its own. -/
theorem Memory.read_write {m : Memory} (h : Memory.wf m) (r : Nat) (v : Byte) (k : Nat) :
    Memory.read (Memory.write m r v) k = if k = r then v else Memory.read m k := by
  induction m with
  | nil => exact Memory.read_cons r v [] k (by simp)
  | cons p m ih =>
    obtain ⟨a, x⟩ := p
    have hab := Memory.above_of_wf h
    unfold Memory.write
    split
    · rename_i hra
      refine Memory.read_cons r v _ k fun p hp => ?_
      rcases List.mem_cons.1 hp with rfl | hp
      · exact hra
      · exact Nat.lt_trans hra (hab p hp)
    · split
      · rename_i hra
        rw [Memory.read_cons r v m k (hra ▸ hab), Memory.read_cell, hra]
        by_cases hk : k = a
        · rw [if_pos hk, if_pos hk]
        · rw [if_neg hk, if_neg hk, if_neg (Ne.symm hk)]
      · rename_i hra
        rw [Memory.read_cell, ih (Memory.wf_tail h), Memory.read_cell]
        by_cases hk : a = k
        · rw [if_pos hk, if_pos hk, if_neg (by omega)]
        · rw [if_neg hk, if_neg hk]

theorem Memory.mem_cons_cases {r : Nat} {v : Byte} {m : Memory} {p : Host.Cell}
    (h : p ∈ Memory.cons r v m) : (p = (r, v) ∧ v ≠ 0) ∨ p ∈ m := by
  unfold Memory.cons at h
  split at h
  · exact .inr h
  · rename_i hv
    rcases List.mem_cons.1 h with h | h
    · exact .inl ⟨h, hv⟩
    · exact .inr h

/-- What a written memory lists: the cell written, or a cell listed before. -/
theorem Memory.mem_write_cases {m : Memory} {r : Nat} {v : Byte} {p : Host.Cell}
    (h : p ∈ Memory.write m r v) : (p = (r, v) ∧ v ≠ 0) ∨ p ∈ m := by
  induction m with
  | nil => exact Memory.mem_cons_cases h
  | cons c m ih =>
    obtain ⟨a, x⟩ := c
    unfold Memory.write at h
    split at h
    · exact Memory.mem_cons_cases h
    · split at h
      · exact (Memory.mem_cons_cases h).imp_right (List.mem_cons_of_mem _)
      · rcases List.mem_cons.1 h with h | h
        · exact .inr (h ▸ List.mem_cons_self ..)
        · exact (ih h).imp_right (List.mem_cons_of_mem _)

theorem Memory.wf_cons {r : Nat} {v : Byte} {m : Memory} (h : Memory.wf m) (hb : ∀ p ∈ m, r < p.1) :
    Memory.wf (Memory.cons r v m) := by
  unfold Memory.cons
  split
  · exact h
  · rename_i hv
    refine ⟨List.pairwise_cons.2 ⟨hb, h.1⟩, fun p hp => ?_⟩
    rcases List.mem_cons.1 hp with rfl | hp
    · exact hv
    · exact h.2 p hp

/-- A write keeps the canonical form. -/
theorem Memory.wf_write {m : Memory} (h : Memory.wf m) (r : Nat) (v : Byte) :
    Memory.wf (Memory.write m r v) := by
  induction m with
  | nil => exact Memory.wf_cons h (by simp)
  | cons c m ih =>
    obtain ⟨a, x⟩ := c
    have hab := Memory.above_of_wf h
    unfold Memory.write
    split
    · rename_i hra
      refine Memory.wf_cons h fun p hp => ?_
      rcases List.mem_cons.1 hp with rfl | hp
      · exact hra
      · exact Nat.lt_trans hra (hab p hp)
    · split
      · rename_i hra
        exact Memory.wf_cons (Memory.wf_tail h) (hra ▸ hab)
      · have ih := ih (Memory.wf_tail h)
        refine ⟨List.pairwise_cons.2 ⟨fun p hp => ?_, ih.1⟩, fun p hp => ?_⟩
        · rcases Memory.mem_write_cases hp with ⟨rfl, -⟩ | hp
          · show a < r
            omega
          · exact hab p hp
        · rcases List.mem_cons.1 hp with rfl | hp
          · exact h.2 _ (List.mem_cons_self ..)
          · exact ih.2 p hp

/-- A write to a register of the bank keeps the bank within its registers. -/
theorem Memory.within_write {m : Memory} {n r : Nat} (h : Memory.within m n) (hr : r < n) (v : Byte) :
    Memory.within (Memory.write m r v) n := by
  intro p hp
  rcases Memory.mem_write_cases hp with ⟨rfl, -⟩ | hp
  · exact hr
  · exact h p hp

@[simp] theorem Memory.fill_zero (n : Nat) : Memory.fill n 0 = [] := rfl

theorem Memory.read_cells (l : List Nat) (v : Byte) (k : Nat) :
    Memory.read (l.map fun r => (r, v)) k = if k ∈ l then v else 0 := by
  induction l with
  | nil => rfl
  | cons a l ih =>
    rw [List.map_cons, Memory.read_cell, ih]
    by_cases hk : a = k
    · simp [hk]
    · simp [hk, Ne.symm hk]

/-- The bulk fill (R91): every register below `n` holds the byte. -/
theorem Memory.read_fill (n : Nat) (v : Byte) (k : Nat) :
    Memory.read (Memory.fill n v) k = if k < n then v else 0 := by
  unfold Memory.fill
  split
  · rename_i hv
    simp [hv, Memory.unlisted]
  · simp [Memory.read_cells]

/-- The bulk fill is in canonical form. -/
theorem Memory.wf_fill (n : Nat) (v : Byte) : Memory.wf (Memory.fill n v) := by
  unfold Memory.fill
  split
  · exact ⟨List.Pairwise.nil, by simp⟩
  · rename_i hv
    refine ⟨?_, fun p hp => ?_⟩
    · rw [List.pairwise_map]
      exact List.pairwise_lt_range
    · obtain ⟨r, -, rfl⟩ := List.mem_map.1 hp
      exact hv

theorem Memory.within_fill (n : Nat) (v : Byte) : Memory.within (Memory.fill n v) n := by
  unfold Memory.fill
  split
  · simp
  · intro p hp
    obtain ⟨r, hr, rfl⟩ := List.mem_map.1 hp
    exact List.mem_range.1 hr

/-- `0xFF - (1 << j)` is the complement of `1 << j` within 8 bits (R94). -/
theorem mask_eq_not {j : Nat} (hj : j < 8) : 0xFF#8 - (1#8 <<< j) = ~~~(1#8 <<< j) := by
  interval_cases j <;> rfl

/-- `1 << j` has exactly bit `j` (R94). -/
theorem getLsbD_one_shiftLeft {j k : Nat} (hk : k < 8) : (1#8 <<< j).getLsbD k = decide (k = j) := by
  simp only [BitVec.getLsbD_shiftLeft, BitVec.getLsbD_one, hk, decide_true, Bool.true_and]
  rw [Bool.eq_iff_iff]
  simp
  omega

/-- A byte after one bit is replaced: that bit, and every other bit as before (R90). -/
theorem getLsbD_byteWithBit (b : Byte) {j k : Nat} (v : Bool) (hj : j < 8) (hk : k < 8) :
    (byteWithBit b j v).getLsbD k = if k = j then v else b.getLsbD k := by
  have one := getLsbD_one_shiftLeft (j := j) hk
  unfold byteWithBit
  rw [mask_eq_not hj]
  cases v
  · rw [if_neg Bool.false_ne_true, BitVec.getLsbD_and, BitVec.getLsbD_not, one]
    by_cases h : k = j <;> simp [h, hj, hk]
  · rw [if_pos rfl, BitVec.getLsbD_or, one]
    by_cases h : k = j <;> simp [h]

theorem bitIndex_lt (idx : Nat) : bitIndex idx < 8 := Nat.mod_lt _ (by decide)

/-- A bit read after a bit write (R12, R95). -/
theorem Memory.bitRead_bitWrite {m : Memory} (h : Memory.wf m) (idx : Nat) (v : Bool) (k : Nat) :
    (m.bitWrite idx v).bitRead k = if k = idx then v else m.bitRead k := by
  unfold Memory.bitRead Memory.bitWrite
  rw [Memory.read_write h]
  by_cases hr : regIndex k = regIndex idx
  · rw [if_pos hr, getLsbD_byteWithBit _ _ (bitIndex_lt idx) (bitIndex_lt k), ← hr]
    have : bitIndex k = bitIndex idx ↔ k = idx := by
      unfold bitIndex regIndex at *
      omega
    simp [this]
  · rw [if_neg hr, if_neg]
    rintro rfl
    exact hr rfl

theorem Memory.wf_bitWrite {m : Memory} (h : Memory.wf m) (idx : Nat) (v : Bool) :
    Memory.wf (m.bitWrite idx v) := Memory.wf_write h _ _

/-- A canonical memory is determined by its reads. -/
theorem Memory.ext_of_read {m m' : Memory} (h : Memory.wf m) (h' : Memory.wf m')
    (hr : ∀ k, Memory.read m k = Memory.read m' k) : m = m' := by
  induction m generalizing m' with
  | nil =>
    cases m' with
    | nil => rfl
    | cons c m' =>
      have := hr c.1
      rw [show c = (c.1, c.2) from rfl, Memory.read_cell, if_pos rfl] at this
      exact absurd this.symm (h'.2 c (List.mem_cons_self ..))
  | cons c m ih =>
    cases m' with
    | nil =>
      have := hr c.1
      rw [show c = (c.1, c.2) from rfl, Memory.read_cell, if_pos rfl] at this
      exact absurd this (h.2 c (List.mem_cons_self ..))
    | cons c' m' =>
      obtain ⟨a, x⟩ := c
      obtain ⟨a', x'⟩ := c'
      have ha := Memory.above_of_wf h
      have ha' := Memory.above_of_wf h'
      have hx : x ≠ 0 := h.2 _ (List.mem_cons_self ..)
      have hx' : x' ≠ 0 := h'.2 _ (List.mem_cons_self ..)
      have haa : a = a' := by
        rcases Nat.lt_trichotomy a a' with hlt | heq | hgt
        · have := hr a
          rw [Memory.read_cell, if_pos rfl, Memory.read_cell, if_neg (by omega),
            Memory.read_below fun p hp => Nat.lt_trans hlt (ha' p hp)] at this
          exact absurd this hx
        · exact heq
        · have := hr a'
          rw [Memory.read_cell, if_neg (by omega), Memory.read_cell, if_pos rfl,
            Memory.read_below fun p hp => Nat.lt_trans hgt (ha p hp)] at this
          exact absurd this.symm hx'
      subst haa
      have hxx : x = x' := by
        have := hr a
        rwa [Memory.read_cell, if_pos rfl, Memory.read_cell, if_pos rfl] at this
      subst hxx
      rw [ih (Memory.wf_tail h) (Memory.wf_tail h') fun k => ?_]
      have := hr k
      rw [Memory.read_cell, Memory.read_cell] at this
      by_cases hk : a = k
      · rw [← hk, Memory.read_below ha, Memory.read_below ha']
      · rwa [if_neg hk, if_neg hk] at this

end Sys2Proof.Machine
end

