-- ==== Sys2Proof/Laws/PerInstr.lean ====
section
/-! SUPPORT. Statements about every instruction as syntax, one lemma per constructor of Instr: the fields of the
encoded word are the opcode, the Boolean and the index of the command (30_encoding R71, R73, R74). -/

namespace Sys2Proof

/-- The field `op` of a packed word (R71). -/
theorem fieldOp_packWord (op : BitVec 4) (v : Bool) (arg : Nat) : fieldOp (packWord op v arg) = op := by
  apply BitVec.eq_of_toNat_eq
  have h := op.isLt
  cases v <;> simp [fieldOp, packWord, Nat.shiftRight_eq_div_pow] <;> omega

/-- The field `v` of a packed word (R71). -/
theorem fieldV_packWord (op : BitVec 4) (v : Bool) (arg : Nat) : fieldV (packWord op v arg) = v := by
  have h := op.isLt
  cases v <;> simp [fieldV, packWord, BitVec.getLsbD, Nat.testBit_eq_decide_div_mod_eq] <;> omega

/-- The field `arg` of a packed word (R71). -/
theorem fieldArg_packWord (op : BitVec 4) (v : Bool) (arg : Nat) :
    fieldArg (packWord op v arg) = arg % 2048 := by
  have h := op.isLt
  cases v <;> simp [fieldArg, packWord] <;> omega

/-- Every word is the packing of its fields (R71). -/
theorem packWord_fields (w : Word) : packWord (fieldOp w) (fieldV w) (fieldArg w) = w := by
  apply BitVec.eq_of_toNat_eq
  have h := w.isLt
  unfold fieldV
  rw [BitVec.getLsbD, Nat.testBit_eq_decide_div_mod_eq]
  by_cases hv : w.toNat / 2048 % 2 = 1 <;>
    simp [fieldOp, fieldArg, packWord, Nat.shiftRight_eq_div_pow, hv] <;> omega

/-- The statement of the family: the encoded word holds the command's opcode and operands in their fields. -/
def Laws.EncodedFields.Statement (i : Instr) : Prop :=
  fieldOp (encode i) = i.opcode ∧ fieldV (encode i) = i.vOperand ∧
    (i.WellFormed = true → fieldArg (encode i) = i.argOperand)

/-- One proof for all constructors, from the packing lemmas and what well-formedness says of the index. -/
theorem Laws.EncodedFields.of_fits {i : Instr} (h : i.WellFormed = true → i.argOperand < 2048) :
    Laws.EncodedFields.Statement i :=
  ⟨fieldOp_packWord _ _ _, fieldV_packWord _ _ _, fun hw =>
    (fieldArg_packWord _ _ _).trans (Nat.mod_eq_of_lt (h hw))⟩

theorem Laws.EncodedFields.setbit (idx : Nat) (v : Bool) : Laws.EncodedFields.Statement (.setbit idx v) :=
  Laws.EncodedFields.of_fits fun h => of_decide_eq_true h

theorem Laws.EncodedFields.setall (v : Bool) : Laws.EncodedFields.Statement (.setall v) :=
  Laws.EncodedFields.of_fits fun _ => Nat.two_pow_pos 11

theorem Laws.EncodedFields.getbit (idx : Nat) : Laws.EncodedFields.Statement (.getbit idx) :=
  Laws.EncodedFields.of_fits fun h => of_decide_eq_true h

theorem Laws.EncodedFields.rdbyte (reg : Nat) : Laws.EncodedFields.Statement (.rdbyte reg) :=
  Laws.EncodedFields.of_fits fun h => of_decide_eq_true h

theorem Laws.EncodedFields.commit : Laws.EncodedFields.Statement .commit :=
  Laws.EncodedFields.of_fits fun _ => Nat.two_pow_pos 11

theorem Laws.EncodedFields.setoe (v : Bool) : Laws.EncodedFields.Statement (.setoe v) :=
  Laws.EncodedFields.of_fits fun _ => Nat.two_pow_pos 11

theorem Laws.EncodedFields.mreset : Laws.EncodedFields.Statement .mreset :=
  Laws.EncodedFields.of_fits fun _ => Nat.two_pow_pos 11

theorem Laws.EncodedFields.status : Laws.EncodedFields.Statement .status :=
  Laws.EncodedFields.of_fits fun _ => Nat.two_pow_pos 11

end Sys2Proof
end

