-- ==== Sys2Proof/Tests/Slice0.lean ====
section
/-! SUPPORT. The model's own tests (expected results from 95_test_vectors and the rules' examples), the well-formedness
smoke tests, and for every statement with hypotheses a witness that meets them. -/

namespace Sys2Proof.Tests

open Sys2Proof Sys2Proof.Machine

/-! Decoding: words written out from the encoding of R71, R73: `op` (4) `v` (1) `arg` (11). -/

theorem test_decode_setbit : decodeWord 0b0001_1_00000001001#16 = .ok (.setbit 9 true) := by rfl
theorem test_decode_setall : decodeWord 0b0010_1_00000000000#16 = .ok (.setall true) := by rfl
theorem test_decode_getbit : decodeWord 0b0011_0_00000011111#16 = .ok (.getbit 31) := by rfl
theorem test_decode_rdbyte : decodeWord 0b0100_0_00011111111#16 = .ok (.rdbyte 255) := by rfl
theorem test_decode_commit : decodeWord 0b0101_0_00000000000#16 = .ok .commit := by rfl
theorem test_decode_setoe : decodeWord 0b0110_1_00000000000#16 = .ok (.setoe true) := by rfl
theorem test_decode_mreset : decodeWord 0b0111_0_00000000000#16 = .ok .mreset := by rfl
theorem test_decode_status : decodeWord 0b1000_0_00000000000#16 = .ok .status := by rfl

/-- 95_test_vectors 2.1: illegal words, and why. -/
theorem test_decode_illegal :
    decodeWord 0x2001 = .error (.reservedField 0x2) ∧ decodeWord 0x3FFF = .error (.reservedField 0x3) ∧
    decodeWord 0x5800 = .error (.reservedField 0x5) ∧ decodeWord 0x0FFF = .error (.unassignedOpcode 0x0) ∧
    decodeWord 0x9000 = .error (.unassignedOpcode 0x9) := ⟨rfl, rfl, rfl, rfl, rfl⟩

/-- R73: the masks make the rows disjoint: two rows ask different bits of some position both look at. -/
theorem test_rows_disjoint :
    opcodeRows.Pairwise (fun r r' => r.mask &&& r'.mask &&& (r.matchBits ^^^ r'.matchBits) ≠ 0) := by decide

/-- R77: the words of the spec's examples. -/
theorem test_encode_examples :
    encode (.setbit 0 true) = 0x1800 ∧ encode (.setbit 9 false) = 0x1009 ∧ encode (.getbit 31) = 0x301F ∧
    encode (.rdbyte 3) = 0x4003 ∧ encode (.setoe true) = 0x6800 := by decide

/-- R77, R78: text. -/
theorem test_assemble :
    asmLine ['S', 'E', 'T', 'B', 'I', 'T', ' ', '9', ',', ' ', '0'] = .command (.setbit 9 false) ∧
    asmLine ['G', 'E', 'T', 'B', 'I', 'T', ' ', '0', 'x', '1', 'F', ' ', ';', 'x'] = .command (.getbit 31) ∧
    asmLine ['O', 'E', 'O', 'N'] = .command (.setoe true) ∧
    asmLine ['R', 'D', 'B', 'Y', 'T', 'E', ' ', '2', '0', '4', '8'] = .error := by decide

/-! Well-formedness: each check refuses an ill-formed term. -/

theorem test_wf_refuses_setbit : (Instr.setbit 2048 true).WellFormed = false := by decide
theorem test_wf_refuses_getbit : (Instr.getbit 2048).WellFormed = false := by decide
theorem test_wf_refuses_rdbyte : (Instr.rdbyte 2048).WellFormed = false := by decide
theorem test_cfg_refuses_no_register : { Cfg.default with n := 0 }.wf = false := by decide
theorem test_cfg_refuses_too_many : { Cfg.default with n := 257 }.wf = false := by decide
theorem test_cfg_refuses_shared_pin : { Cfg.default with oePin := 3 }.wf = false := by decide
theorem test_cfg_accepts_pin_zero : { Cfg.default with dsPin := 0, n := 256 }.wf = true := by decide

/-! A small state: N registers, the optional lines bound where the pins are not 0, in `IDLE` after construction. -/

/-- The block in `IDLE` with the given bank and host, its lines as R33 leaves them. -/
def idleWith (n oePin mrPin : Nat) (bits : Memory) (host : List HostMove) : State :=
  { State.powerUp { Cfg.default with n := n, oePin := oePin, mrPin := mrPin } with
    bits := bits
    lines := ⟨.l, .h, .h, if 0 < oePin then .h else .z, if 0 < mrPin then .h else .z⟩
    mode := .idle
    cur := .none
    chain := ⟨List.replicate (8 * n) false, List.replicate (8 * n) false⟩
    host := host }

/-- The next state of an outcome, the given one where there is none. -/
def nextOr (s : State) : Host.Outcome State Fault Refusal → State
  | .next t => t
  | .fault _ => s
  | .refused _ => s

/-- The state after one step. -/
def after (s : State) : State := nextOr s (step s)

/-! One step, expected results from 95_test_vectors 2.2 to 2.6. -/

theorem test_setbit_sets :
    (after (idleWith 2 0 0 [] [.issue 0x180F])).bits = [(1, 0x80)] := by decide
theorem test_setbit_range :
    let t := after (idleWith 2 0 0 [] [.issue 0x1810])
    t.bits = [] ∧ t.perr = true ∧ t.rsp = some ⟨0x1810, .errRange, 0⟩ := by decide
theorem test_setall_sets :
    (after (idleWith 2 0 0 [(0, 0xA5), (1, 0x3C)] [.issue 0x2800])).bits = [(0, 0xFF), (1, 0xFF)] := by decide
theorem test_setall_clears :
    (after (idleWith 2 0 0 [(0, 0xA5), (1, 0x3C)] [.issue 0x2000])).bits = [] := by decide
theorem test_getbit_one :
    (after (idleWith 2 0 0 [(0, 0xA5), (1, 0x3C)] [.issue 0x300A])).rsp = some ⟨0x300A, .ok, 1⟩ := by decide
theorem test_getbit_zero :
    (after (idleWith 2 0 0 [(0, 0xA5), (1, 0x3C)] [.issue 0x300F])).rsp = some ⟨0x300F, .ok, 0⟩ := by decide
theorem test_rdbyte_reads :
    (after (idleWith 2 0 0 [(0, 0xA5), (1, 0x3C)] [.issue 0x4001])).rsp = some ⟨0x4001, .ok, 0x003C⟩ := by decide
theorem test_rdbyte_range :
    (after (idleWith 2 0 0 [] [.issue 0x4002])).rsp = some ⟨0x4002, .errRange, 0⟩ := by decide
theorem test_commit_accepted :
    let t := after (idleWith 1 0 0 [] [.issue 0x5000])
    t.mode = .busy ∧ t.cur = .commit ∧ t.upc = 0 ∧ t.trace = [] ∧ t.cmdReady = false := by decide
theorem test_commit_first_write :
    (after { idleWith 1 0 0 [] [] with mode := .busy, cur := .commit }).trace = [.w .stcp .l] := by decide
theorem test_setoe_enables :
    let t := after (idleWith 1 4 0 [] [.issue 0x6800])
    t.trace = [.w .oe .l] ∧ t.outputEnabled = true ∧ t.lines.oe = .l := by decide
theorem test_setoe_unbound :
    (after (idleWith 1 0 0 [] [.issue 0x6000])).rsp = some ⟨0x6000, .unavail, 0⟩ := by decide
theorem test_mreset_unbound :
    let t := after (idleWith 1 0 0 [(0, 0xA5)] [.issue 0x7000])
    t.rsp = some ⟨0x7000, .unavail, 0⟩ ∧ t.bits = [(0, 0xA5)] ∧ t.trace = [] := by decide
theorem test_mreset_first_write :
    let t := after { idleWith 1 0 5 [(0, 0xA5)] [] with mode := .busy, cur := .mreset }
    t.trace = [.w .mr .l] ∧ t.bits = [] ∧ t.upc = 1 := by decide
theorem test_status_minimal :
    (after (idleWith 1 0 0 [] [.issue 0x8000])).rsp = some ⟨0x8000, .ok, 0x0001⟩ := by decide
theorem test_status_all_bound :
    (after (idleWith 4 4 5 [] [.issue 0x8000])).rsp = some ⟨0x8000, .ok, 0x0306⟩ := by decide

/-- 95_test_vectors 2.8: a failed SETOE write. -/
theorem test_setoe_write_fails :
    let s := idleWith 1 4 0 [] [.issue 0x6800]
    let t := after { s with cfg := { s.cfg with pinFault := true }, pinErr := [true] }
    t.trace = [.wf .oe .l] ∧ t.outputEnabled = false ∧ t.rsp = some ⟨0x6800, .errPin, 0⟩ ∧ t.pf = true := by decide

/-- P4 step 4: the all-zero word is illegal. -/
theorem test_illegal_word :
    let t := after (idleWith 1 0 0 [] [.issue 0x0000])
    t.rsp = some ⟨0x0000, .errIllegal, 0⟩ ∧ t.perr = true := by decide

/-- R191: the first micro-operation of construction, from reset. -/
theorem test_first_step_from_reset :
    (after State.reset).trace = [.w .ds .l] ∧ (after State.reset).upc = 1 := by decide

/-- R175: the same without the pin capability. -/
theorem test_no_controller :
    (after (State.powerUp { Cfg.default with ctrlAvail := false })).initFail = true := by decide

/-- The word placed by `withFetchWord` is run by the very next step. -/
theorem test_fetch_word_runs :
    (after (State.reset.withFetchWord 16 0x1807)).bits = [(0, 0x80)] := by decide

/-! Witnesses: states and operands that meet the hypotheses of the statements. -/

/-- Two registers, both optional lines bound, a mixed bank. -/
def both (host : List HostMove) : State := idleWith 2 4 5 [(0, 0xA5), (1, 0x3C)] host

/-- The same running COMMIT or MRESET. -/
def running (c : Cur) (upc : Nat) : State := { both [] with mode := .busy, cur := c, upc := upc }

/-- The same with a line write about to fail. -/
def failing (s : State) : State := { s with cfg := { s.cfg with pinFault := true }, pinErr := [true] }

/-- DecodeEncodeRoundTrip, EncodeIsFormatC: the largest index. -/
theorem witness_round_trip :
    (Instr.setbit 2047 true).WellFormed = true ∧ (Instr.getbit 2047).WellFormed = true ∧
    (Instr.rdbyte 2047).WellFormed = true ∧ (Instr.setall true).WellFormed = true := by decide

/-- PseudoInstructionWords: the largest index. -/
theorem witness_pseudo : 2047 < 2048 ∧ encode (Pseudo.setpin 2047).expand = 0x1FFF := by decide

/-- EncodeDecodeRoundTrip. -/
theorem witness_decodes : decodeWord 0x1FFF = .ok (.setbit 2047 true) := by rfl

/-- ReservedFieldsRejected: each clause. -/
theorem witness_reserved :
    (fieldOp 0x2001 = 0x2 ∧ fieldArg 0x2001 ≠ 0) ∧ (fieldOp 0x67FF = 0x6 ∧ fieldArg 0x67FF ≠ 0) ∧
    (fieldOp 0x3800 = 0x3 ∧ fieldV 0x3800 = true) ∧ (fieldOp 0x4FFF = 0x4 ∧ fieldV 0x4FFF = true) ∧
    (fieldOp 0x5800 = 0x5 ∧ fieldV 0x5800 = true) ∧ (fieldOp 0x7001 = 0x7 ∧ fieldArg 0x7001 ≠ 0) ∧
    (fieldOp 0x8001 = 0x8 ∧ fieldArg 0x8001 ≠ 0) := by decide

/-- UnassignedOpcodesRejected: both clauses, at the ends of the range. -/
theorem witness_unassigned :
    fieldOp 0x0FFF = 0x0 ∧ 9 ≤ (fieldOp 0x9000).toNat ∧ 9 ≤ (fieldOp 0xFFFF).toNat := by decide

/-- StepRunsDecodedCommand. -/
theorem witness_step_runs :
    (both [.issue 0x8000]).cfg.wf = true ∧ (both [.issue 0x8000]).mode = .idle ∧
    (both [.issue 0x8000]).presents 0x8000 [] ∧ (both [.present 0x8000, .wait]).presents 0x8000 [.wait] ∧
    decodeWord 0x8000 = .ok .status := ⟨by decide, by decide, by decide, by decide, rfl⟩

/-- IllegalWordAnswered. -/
theorem witness_illegal :
    (both [.issue 0x2001]).cfg.wf = true ∧ (both [.issue 0x2001]).mode = .idle ∧
    (both [.issue 0x2001]).presents 0x2001 [] ∧ decodeWord 0x2001 = .error (.reservedField 0x2) :=
  ⟨by decide, by decide, by decide, rfl⟩

/-- CommandIgnoredUnlessIdle: the step of a waiting host that its inner clauses speak of, a next state and a fault
(outside the sequence) and a refusal (no register). -/
theorem witness_waiting :
    let w := [HostMove.wait]
    step { running .commit 0 with host := w } = .next (after { running .commit 0 with host := w }) ∧
    step { running .commit 50 with host := w } = .fault .noMicroOp ∧
    step { State.powerUp { Cfg.default with n := 0 } with host := w } = .refused .illFormedConfig := ⟨rfl, rfl, rfl⟩

/-- CommandIgnoredUnlessIdle, NoCommandAcceptedUnlessIdle: the three other modes. -/
theorem witness_not_idle :
    State.reset.cfg.wf = true ∧ State.reset.mode ≠ .idle ∧ (running .commit 0).cfg.wf = true ∧
    (running .commit 0).mode ≠ .idle ∧ State.reset.toFailed.mode ≠ .idle := by decide

/-- IdleWaits. -/
theorem witness_idle_waits :
    (both []).cfg.wf = true ∧ (both []).mode = .idle ∧ (both []).rstAsserted = false ∧
    (both []).presented = none ∧ (both [.wait]).rstAsserted = false ∧ (both [.wait]).presented = none := by decide

/-- ResetIsDominant: in mid-sequence. -/
theorem witness_reset :
    ({ running .commit 5 with host := [.reset true, .wait] }).cfg.wf = true ∧
    ({ running .commit 5 with host := [.reset true, .wait] }).host = .reset true :: [.wait] := by decide

/-- IllFormedConfigRefused. -/
theorem witness_ill_formed : (State.powerUp { Cfg.default with n := 0 }).cfg.wf = false := by decide

/-- ConfigurationIsConstant, StickyFlags, OneResponsePerStep, HistoriesNeverRead, BlockNeverReadsChain,
OutputsChangeOnlyAtFinalLatch: a step that answers a next state, without reset. -/
theorem witness_step_next :
    step (both [.wait]) = .next (after (both [.wait])) ∧ (both [.wait]).rstAsserted = false := ⟨rfl, by decide⟩

/-- OutputsChangeOnlyAtFinalLatch: a step that does change the storage stage. -/
theorem witness_latch_step :
    let s := { running .commit 49 with
      lines := ⟨.h, .h, .l, .h, .h⟩, chain := ⟨List.replicate 16 true, List.replicate 16 false⟩ }
    step s = .next (after s) ∧ (after s).chain.q ≠ s.chain.q := ⟨rfl, by decide⟩

/-- StickyFlags: each flag goes from false to true. -/
theorem witness_flags_rise :
    (both [.issue 0x0000]).perr = false ∧ (after (both [.issue 0x0000])).perr = true ∧
    (failing (running .commit 0)).pf = false ∧ (after (failing (running .commit 0))).pf = true := by decide

/-- SetbitWritesOneBit, GetbitAnswersBit, RdbyteAnswersByte, BankFamilyLaws: both clauses at their boundary. -/
theorem witness_bank :
    (both []).cfg.wf = true ∧ (both []).mode = .idle ∧ (both []).bits.wf ∧
    15 < 8 * (both []).cfg.n ∧ 8 * (both []).cfg.n ≤ 16 ∧ 1 < (both []).cfg.n ∧ (both []).cfg.n ≤ 2 ∧
    14 < 8 * (both []).cfg.n := by decide

/-- SetallIsAllSetbits: descending order. -/
theorem witness_setall_order :
    (both []).bits.within (both []).cfg.n ∧
    (List.range (8 * (both []).cfg.n)).reverse.Perm (List.range (8 * (both []).cfg.n)) ∧
    exec (.setall true) (both []) = .next (nextOr (both []) (exec (.setall true) (both []))) :=
  ⟨by decide, List.reverse_perm _, rfl⟩

/-- BankCommandFrame: a next state for each command named, in range and out of range. -/
theorem witness_bank_frame :
    (∃ t, exec (.setbit 15 true) (both []) = .next t) ∧ (∃ t, exec (.setbit 16 true) (both []) = .next t) ∧
    (∃ t, exec (.setall false) (both []) = .next t) ∧ (∃ t, exec (.getbit 15) (both []) = .next t) ∧
    (∃ t, exec (.rdbyte 2) (both []) = .next t) ∧ (∃ t, exec .status (both []) = .next t) :=
  ⟨⟨_, rfl⟩, ⟨_, rfl⟩, ⟨_, rfl⟩, ⟨_, rfl⟩, ⟨_, rfl⟩, ⟨_, rfl⟩⟩

/-- CommitStepWritesOneLine: the first and the last position. -/
theorem witness_commit_step :
    (running .commit 0).cfg.wf = true ∧ (running .commit 0).rstAsserted = false ∧
    (running .commit 0).mode = .busy ∧ (running .commit 0).cur = .commit ∧
    (running .commit 0).upc + 1 < 24 * (running .commit 0).cfg.n + 2 ∧
    (running .commit 49).upc + 1 = 24 * (running .commit 49).cfg.n + 2 ∧
    (running .commit 0).writeFails = false ∧ (running .commit 49).writeFails = false := by decide

/-- The same block with PINFAULT true and an oracle that answers "does not fail" for the next `k` writes, then
"fails". -/
def fallible (s : State) (k : Nat) : State :=
  { s with cfg := { s.cfg with pinFault := true }, pinErr := List.replicate k false ++ [true] }

/-- MresetStepWritesOneLine: the first, second and last position, PINFAULT true. -/
theorem witness_mreset_step :
    let s := fun k => fallible (running .mreset k) 1
    (s 0).cfg.wf = true ∧ (s 0).rstAsserted = false ∧ (s 0).mode = .busy ∧ (s 0).cur = .mreset ∧
    (s 0).cfg.mrBound = true ∧ (s 0).writeFails = false ∧ (s 0).cfg.pinFault = true ∧
    (s 1).upc ≤ 24 * (s 1).cfg.n + 2 ∧ (s 50).upc = 24 * (s 50).cfg.n + 2 ∧
    (s 51).upc + 1 = 24 * (s 51).cfg.n + 4 := by decide

/-- InitStepWritesOneLine: PINFAULT true; `c0 = 5`, `LI = 55` with both optional lines and two registers. -/
theorem witness_init_step :
    let s := fun k => fallible { State.powerUp (both []).cfg with upc := k } 1
    (s 0).cfg.wf = true ∧ (s 0).rstAsserted = false ∧ (s 0).mode = .init ∧ (s 0).cur = .init ∧
    (s 0).cfg.ctrlAvail = true ∧ (s 0).writeFails = false ∧ (s 3).cfg.oeBound = true ∧ (s 4).cfg.mrBound = true ∧
    3 + (s 5).cfg.oeBound.toNat + (s 5).cfg.mrBound.toNat = 5 ∧ 54 + 1 = 5 + 24 * (s 54).cfg.n + 2 := by decide

/-- CommitAccepted, CommitCompletes, CommitLatchesBank. -/
theorem witness_commit_runs :
    let s := both [.issue 0x5000, .present 0x2800]
    s.cfg.wf = true ∧ s.writesSucceed (24 * s.cfg.n + 2) ∧ s.mode = .idle ∧ s.presents 0x5000 [.present 0x2800] ∧
    s.noReset = true ∧ eff s.cfg s.lines .mr = .h ∧ s.chain.sh.length = 8 * s.cfg.n ∧
    (fallible s 50).writesSucceed (24 * s.cfg.n + 2) ∧ (fallible s 50).cfg.pinFault = true := by decide

/-- SetoeTransitionTable: each row; the rows without a write also where the next write would fail. -/
theorem witness_setoe_rows :
    (both []).cfg.wf = true ∧ (both []).mode = .idle ∧ (both []).writeFails = false ∧
    (both []).cfg.oeBound = true ∧ (both []).outputEnabled = false ∧
    ({ both [] with outputEnabled := true }).outputEnabled = true ∧
    (idleWith 1 0 0 [] []).cfg.oeBound = false ∧ (idleWith 1 0 0 [] []).outputEnabled = true ∧
    ({ both [] with outputEnabled := true }).writeFails = false ∧ (failing (both [])).writeFails = true ∧
    (failing (both [])).outputEnabled = false ∧ (failing (idleWith 1 0 0 [] [])).writeFails = true := by decide

/-- SetoeFrame: with a write, with a failed write. -/
theorem witness_setoe_frame :
    (∃ t, exec (.setoe true) (both []) = .next t) ∧ (∃ t, exec (.setoe true) (failing (both [])) = .next t) ∧
    (both []).cur = .none ∧ (both []).upc = 0 := ⟨⟨_, rfl⟩, ⟨_, rfl⟩, by decide, by decide⟩

/-- SetoeWriteFails. -/
theorem witness_setoe_fails :
    (failing (both [])).cfg.wf = true ∧ (failing (both [])).mode = .idle ∧
    (failing (both [])).cfg.oeBound = true ∧ true ≠ (failing (both [])).outputEnabled ∧
    (failing (both [])).writeFails = true := by decide

/-- SetoeWriteElision: a value that differs and one that does not. -/
theorem witness_elision :
    (true ≠ (both []).outputEnabled → (both []).writeFails = false) ∧ true ≠ (both []).outputEnabled ∧ false = (both []).outputEnabled := by decide

/-- OutputEnabledChangesOnlyBySetoe: by SETOE, and by reset. -/
theorem witness_output_enabled_changes :
    let s := both [.issue 0x6800]
    let r := { both [.reset true] with outputEnabled := true }
    step s = .next (after s) ∧ (after s).outputEnabled ≠ s.outputEnabled ∧
    step r = .next (after r) ∧ (after r).outputEnabled ≠ r.outputEnabled := ⟨rfl, by decide, rfl, by decide⟩

/-- MresetUnavailable, UnavailExactlyWhenUnbound. -/
theorem witness_unbound :
    let s := idleWith 1 0 0 [] []
    s.cfg.wf = true ∧ s.mode = .idle ∧ s.cfg.mrBound = false ∧ s.cfg.oeBound = false ∧
    (s.cfg.oeBound = false → s.outputEnabled = true) := by decide

/-- MresetAccepted, MresetCompletes. -/
theorem witness_mreset_runs :
    let s := both [.issue 0x7000]
    s.cfg.wf = true ∧ s.writesSucceed (24 * s.cfg.n + 4) ∧ s.cfg.mrBound = true ∧ s.mode = .idle ∧
    s.presents 0x7000 [] ∧ s.noReset = true ∧ s.chain.sh.length = 8 * s.cfg.n ∧
    (fallible s 52).writesSucceed (24 * s.cfg.n + 4) ∧ (fallible s 52).cfg.pinFault = true := by decide

/-- ConstructionCompletes: N = 256, both optional lines bound. -/
theorem witness_construction :
    let cfg := { Cfg.default with n := 256, oePin := 4, mrPin := 5 }
    let chain : Chain := ⟨List.replicate 2048 true, []⟩
    let s := { State.powerUp cfg with chain := chain, host := [.issue 0x8000], pinErr := [true], draws := 3 }
    cfg.wf = true ∧ s.writesSucceed (initLen cfg) ∧ cfg.ctrlAvail = true ∧ s.noReset = true ∧
    chain.sh.length = 8 * cfg.n := ⟨by decide, by decide, rfl, by decide, List.length_replicate⟩

/-- ConstructionCompletes with PINFAULT true: 31 answers for 31 writes, then "fails". -/
theorem witness_construction_fallible :
    let cfg := { Cfg.default with oePin := 4, mrPin := 5, pinFault := true }
    (fallible (State.powerUp cfg) 31).writesSucceed (initLen cfg) ∧ cfg.wf = true := by decide

/-- SourceOperationsPerformed: a command whose index fits and one whose does not; a construction of two registers on
a block of one. -/
theorem witness_source_operations :
    let cfg := (both []).cfg
    (SourceOp.setBit 2047 true).command = some (.setbit 2047 true) ∧ (Instr.setbit 2047 true).WellFormed = true ∧
    (SourceOp.byteAt 2048).command = some (.rdbyte 2048) ∧ (Instr.rdbyte 2048).WellFormed = false ∧
    cfg.wf = true ∧ cfg.ctrlAvail = true ∧ (idleWith 1 0 0 [] []).chain.sh.length = (idleWith 1 0 0 [] []).cfg.nbits ∧
    (cfg.pinFault = true → ∀ b ∈ (idleWith 1 0 0 [] []).pinErr.take (initLen cfg), b = false) := by decide

/-- R79: an operation is the word of R73; an index beyond the field has none. -/
theorem test_source_operations :
    (SourceOp.setBit 9 false).hostMoves = some [.issue 0x1009] ∧ SourceOp.resetPins.hostMoves = some [.issue 0x2000] ∧
    (SourceOp.setBit 2048 true).hostMoves = none ∧ (SourceOp.readBit 2048).hostMoves = none ∧
    (SourceOp.byteAt 2048).hostMoves = none := by decide

/-- NoControllerFailsConstruction: the first two clauses. -/
theorem witness_no_controller :
    let s := State.powerUp { Cfg.default with ctrlAvail := false }
    s.cfg.wf = true ∧ s.rstAsserted = false ∧ s.mode = .init ∧ s.cur = .init ∧ s.upc = 0 ∧
    s.cfg.ctrlAvail = false ∧ s.toFailed.cfg.wf = true ∧ s.toFailed.rstAsserted = false ∧
    s.toFailed.mode = .failed := by decide

/-- NoControllerFailsConstruction: the third clause, a reset of a failed block. -/
theorem witness_no_controller_again :
    let s := { (State.powerUp Cfg.default).toFailed with host := [.reset false, .issue 0x8000] }
    s.cfg.wf = true ∧ s.host = .reset false :: [.issue 0x8000] ∧
    (∀ avail, [HostMove.issue 0x8000].head? ≠ some (.reset avail)) := by decide

/-- PinFaultAbandonsCommand: the first write of MRESET, the last of COMMIT. -/
theorem witness_pin_fault :
    (failing (running .mreset 0)).cfg.wf = true ∧ (failing (running .mreset 0)).rstAsserted = false ∧
    (failing (running .mreset 0)).mode = .busy ∧ (failing (running .mreset 0)).cur = .mreset ∧
    (failing (running .mreset 0)).microOp = some { driveLow .mr with zeroesAfter := true } ∧
    (failing (running .mreset 0)).writeFails = true ∧ (failing (running .commit 49)).cur = .commit ∧
    (failing (running .commit 49)).microOp = some (driveHigh .stcp) ∧
    (failing (running .commit 49)).writeFails = true := by decide

/-- PinFaultFailsConstruction. -/
theorem witness_pin_fault_init :
    (failing State.reset).cfg.wf = true ∧ (failing State.reset).rstAsserted = false ∧
    (failing State.reset).mode = .init ∧ (failing State.reset).cur = .init ∧
    (failing State.reset).cfg.ctrlAvail = true ∧
    (failing State.reset).microOp = some { driveLow .ds with testsCtrl := true } ∧
    (failing State.reset).writeFails = true := by decide

/-- ChainReactions: each clause's condition is met by some write. -/
theorem witness_chain :
    let s := { both [] with lines := ⟨.h, .l, .l, .h, .h⟩ }
    let m := { both [] with lines := ⟨.h, .l, .l, .h, .l⟩ }
    eff (s.setLine .mr .l).cfg (s.setLine .mr .l).lines .mr = .l ∧
    eff (m.setLine .mr .h).cfg (m.setLine .mr .h).lines .mr = .h ∧
    eff s.cfg s.lines .shcp = .l ∧ eff (s.setLine .shcp .h).cfg (s.setLine .shcp .h).lines .shcp = .h ∧
    eff m.cfg m.lines .mr = .l ∧ eff s.cfg s.lines .mr = .h ∧ 0 < s.chain.sh.length ∧
    eff s.cfg s.lines .stcp = .l ∧ eff (s.setLine .stcp .h).cfg (s.setLine .stcp .h).lines .stcp = .h ∧
    eff (s.setLine .stcp .l).cfg (s.setLine .stcp .l).lines .stcp = .l := by decide

/-- OutputPinsGated: driven and not driven. -/
theorem witness_pins :
    (idleWith 1 0 0 [] []).cfg.oeBound = false ∧ (both []).cfg.oeBound = true ∧ (both []).lines.oe ≠ .l := by decide

/-- StepKeepsInvariant, StepNeverStops, RunningSequenceEnds, InvariantHoldsAtReset: a state that meets the invariant,
in the middle of a COMMIT with a mixed bank, from which a step leads on. -/
theorem witness_invariant : (running .commit 7).Inv where
  cfgWf := by decide
  bankWf := by decide
  bankWithin := by decide
  chainLength := by decide
  position := .inl ⟨by decide, by decide⟩
  oeUnbound := by decide
  mrUnbound := by decide
  driven := ⟨by decide, by decide, by decide, by decide, by decide⟩
  oeLine := fun _ _ => (by decide : (running .commit 7).lines.oe = .h)
  mrLine := fun _ _ => (by decide : (running .commit 7).lines.mr = .h)
  noPinFault := by decide
  fresh := by decide
  bankCleared := by decide
  masterClear := by decide

theorem witness_invariant_step :
    step (running .commit 7) = .next (after (running .commit 7)) ∧ (running .commit 7).mode = .busy ∧
    (running .commit 7).noReset = true ∧ (Cfg.default).wf = true := ⟨rfl, by decide, by decide, by decide⟩

/-- BankWrittenOnlyBy: by a command, by MRESET, by reset. -/
theorem witness_bank_written :
    (after (both [.issue 0x2800])).bits ≠ (both []).bits ∧
    (after (running .mreset 0)).bits ≠ (running .mreset 0).bits ∧
    (after (both [.reset true])).bits ≠ (both []).bits := by decide

end Sys2Proof.Tests
end

section
/-! SUPPORT. The scope of the block (00_scope): the configuration and when it is well formed (R5, R6), what the bank
commands leave alone (R4), and that the observation histories are read by no rule (R8). -/

namespace Sys2Proof.Machine

/-! Well-formed configurations (R6). -/

/-- The pins of the bound roles are distinct: the mandatory ones among themselves, a bound optional one from them,
and the two optional ones from each other. -/
theorem boundPins_nodup_iff (c : Cfg) :
    c.boundPins.Nodup ↔
      (c.dsPin ≠ c.stcpPin ∧ c.dsPin ≠ c.shcpPin ∧ c.stcpPin ≠ c.shcpPin) ∧
      (0 < c.oePin → c.oePin ≠ c.dsPin ∧ c.oePin ≠ c.stcpPin ∧ c.oePin ≠ c.shcpPin) ∧
      (0 < c.mrPin → c.mrPin ≠ c.dsPin ∧ c.mrPin ≠ c.stcpPin ∧ c.mrPin ≠ c.shcpPin) ∧
      (0 < c.oePin → 0 < c.mrPin → c.oePin ≠ c.mrPin) := by
  by_cases ho : 0 < c.oePin <;> by_cases hm : 0 < c.mrPin <;>
    simp [Cfg.boundPins, Cfg.oeBound, Cfg.mrBound, ho, hm] <;> omega

theorem cfg_wf_iff (c : Cfg) : c.wf = true ↔ 1 ≤ c.n ∧ c.n ≤ 256 ∧ c.boundPins.Nodup := by
  simp [Cfg.wf, and_assoc]

theorem step_illFormed {s : State} (hc : s.cfg.wf = false) : step s = .refused .illFormedConfig := by
  unfold step State.cycle
  rw [if_neg (by simp [hc])]

theorem exec_illFormed (i : Instr) {s : State} (hc : s.cfg.wf = false) :
    exec i s = .refused .illFormedConfig := by
  obtain ⟨run, hrun⟩ := exec_accept i
  rw [hrun, State.accept_illFormed run hc]

/-- Settles O15: the distinctness of the bound pins spelled out, and `accept` and the step refuse everything else. -/
theorem illFormedConfigRefused : Obligations.IllFormedConfigRefused := by
  refine ⟨fun c => ?_, fun s hc => step_illFormed hc, fun i s hc => exec_illFormed i hc⟩
  rw [cfg_wf_iff, boundPins_nodup_iff]
  simp only [and_assoc]

/-! The configuration is constant (R5). -/

theorem State.accept_cfg {s t : State} {f : State → State} (hf : (f s).cfg = s.cfg) (h : s.accept f = .next t) :
    t.cfg = s.cfg := by
  obtain ⟨-, ⟨-, rfl⟩ | ⟨-, rfl⟩⟩ := State.accept_cases h
  · exact hf
  · rfl

theorem exec_cfg {i : Instr} {s t : State} (h : exec i s = .next t) : t.cfg = s.cfg := by
  cases i with
  | setbit idx v => exact State.accept_cfg (by split <;> rfl) (exec_setbit idx v s ▸ h)
  | setall v => exact State.accept_cfg rfl (exec_setall v s ▸ h)
  | getbit idx => exact State.accept_cfg (by split <;> rfl) (exec_getbit idx s ▸ h)
  | rdbyte reg => exact State.accept_cfg (by split <;> rfl) (exec_rdbyte reg s ▸ h)
  | commit => exact State.accept_cfg rfl (exec_commit s ▸ h)
  | setoe v => exact State.accept_cfg (by split_ifs <;> rfl) (exec_setoe v s ▸ h)
  | mreset => exact State.accept_cfg (by split <;> rfl) (exec_mreset s ▸ h)
  | status => exact State.accept_cfg rfl (exec_status s ▸ h)

theorem controllerStep_cfg {s t : State} (h : s.controllerStep = .next t) : t.cfg = s.cfg := by
  obtain ⟨op, -, ⟨-, -, rfl⟩ | ⟨-, -, rfl⟩ | ⟨-, -, rfl⟩⟩ := State.controllerStep_cases h
  · rfl
  · rw [(State.advance_frame _).1, State.after_eq, State.before_eq]
    rfl
  · rw [(State.abandon_frame _).1, State.before_eq]
    rfl

/-- Settles O17: of the ways a step can go, only the reset touches the configuration, and there only the strap. -/
theorem configurationIsConstant : Obligations.ConfigurationIsConstant := by
  intro s t h
  obtain ⟨-, ⟨avail, rest, hh, rfl⟩ | ⟨-, -, hctl⟩ | ⟨-, -, w, rest, i, -, -, hexec⟩ |
    ⟨-, -, w, rest, e, -, -, rfl⟩ | ⟨-, -, rfl⟩⟩ := step_cases h
  · exact .inr ⟨avail, rest, hh, rfl⟩
  · exact .inl (by simpa using controllerStep_cfg hctl)
  · exact .inl (by simpa using exec_cfg hexec)
  · exact .inl rfl
  · exact .inl (by simp)

/-! Frames of the bank commands (R4). -/

/-- A register that is not listed reads as 0x00 (R33). -/
theorem Memory.read_of_forall_ne {m : Memory} {r : Nat} (h : ∀ p ∈ m, p.1 ≠ r) : Memory.read m r = 0 := by
  induction m with
  | nil => rfl
  | cons p m ih =>
    rw [show p = (p.1, p.2) from rfl, Memory.read_cell, if_neg (h p (List.mem_cons_self ..))]
    exact ih fun q hq => h q (List.mem_cons_of_mem _ hq)

theorem Memory.read_beyond {m : Memory} {n r : Nat} (h : m.within n) (hr : n ≤ r) : m.read r = 0 :=
  Memory.read_of_forall_ne fun p hp => by have := h p hp; omega

theorem Memory.read_bitWrite_other {m : Memory} (h : m.wf) {idx r : Nat} (v : Bool) (hr : r ≠ regIndex idx) :
    (m.bitWrite idx v).read r = m.read r := by
  unfold Memory.bitWrite
  rw [Memory.read_write h, if_neg hr]

theorem exec_setbit_frame {idx : Nat} {v : Bool} {s t : State} (h : exec (.setbit idx v) s = .next t)
    (hb : s.bits.wf) :
    t = { s with bits := t.bits, perr := t.perr, rsp := t.rsp, responses := t.responses } ∧
      ∀ r, r ≠ idx / 8 → t.bits.read r = s.bits.read r := by
  rw [exec_setbit] at h
  obtain ⟨-, ⟨-, rfl⟩ | ⟨-, rfl⟩⟩ := State.accept_cases h
  · split_ifs
    · exact ⟨rfl, fun r hr => Memory.read_bitWrite_other hb v hr⟩
    · exact ⟨rfl, fun _ _ => rfl⟩
  · exact ⟨rfl, fun _ _ => rfl⟩

theorem exec_setall_frame {v : Bool} {s t : State} (h : exec (.setall v) s = .next t) :
    t = { s with bits := t.bits, rsp := t.rsp, responses := t.responses } ∧
      ∀ r, s.bits.within s.cfg.n → s.cfg.n ≤ r → t.bits.read r = s.bits.read r := by
  rw [exec_setall] at h
  obtain ⟨-, ⟨-, rfl⟩ | ⟨-, rfl⟩⟩ := State.accept_cases h
  · refine ⟨rfl, fun r hw hr => ?_⟩
    rw [State.respond_bits, Memory.read_beyond (Memory.within_fill _ _) hr, Memory.read_beyond hw hr]
  · exact ⟨rfl, fun _ _ _ => rfl⟩

theorem exec_getbit_frame {idx : Nat} {s t : State} (h : exec (.getbit idx) s = .next t) :
    t = { s with perr := t.perr, rsp := t.rsp, responses := t.responses } := by
  rw [exec_getbit] at h
  obtain ⟨-, ⟨-, rfl⟩ | ⟨-, rfl⟩⟩ := State.accept_cases h
  · split_ifs <;> rfl
  · rfl

theorem exec_rdbyte_frame {reg : Nat} {s t : State} (h : exec (.rdbyte reg) s = .next t) :
    t = { s with perr := t.perr, rsp := t.rsp, responses := t.responses } := by
  rw [exec_rdbyte] at h
  obtain ⟨-, ⟨-, rfl⟩ | ⟨-, rfl⟩⟩ := State.accept_cases h
  · split_ifs <;> rfl
  · rfl

theorem exec_status_frame {s t : State} (h : exec .status s = .next t) :
    t = { s with rsp := t.rsp, responses := t.responses } := by
  rw [exec_status] at h
  obtain ⟨-, ⟨-, rfl⟩ | ⟨-, rfl⟩⟩ := State.accept_cases h <;> rfl

/-- Settles O24: the frames of the five commands together. -/
theorem bankCommandFrame : Obligations.BankCommandFrame := by
  intro i s t h hb
  refine ⟨?_, ?_, ?_, ?_, ?_⟩
  · rintro idx v rfl
    exact exec_setbit_frame h hb
  · rintro v rfl
    exact exec_setall_frame h
  · rintro idx rfl
    exact exec_getbit_frame h
  · rintro reg rfl
    exact exec_rdbyte_frame h
  · rintro rfl
    exact exec_status_frame h

/-! The histories are only appended to (R8): every operation commutes with putting an earlier past before them. -/

/-- The state with the events `tr` and the responses `rs` recorded before its own. -/
def State.withPast (s : State) (tr : List Event) (rs : List Response) : State :=
  { s with trace := tr ++ s.trace, responses := rs ++ s.responses }

section
variable (s : State) (tr : List Event) (rs : List Response)

@[simp] theorem State.withPast_cfg : (s.withPast tr rs).cfg = s.cfg := rfl
@[simp] theorem State.withPast_mode : (s.withPast tr rs).mode = s.mode := rfl
@[simp] theorem State.withPast_cur : (s.withPast tr rs).cur = s.cur := rfl
@[simp] theorem State.withPast_upc : (s.withPast tr rs).upc = s.upc := rfl
@[simp] theorem State.withPast_outputEnabled : (s.withPast tr rs).outputEnabled = s.outputEnabled := rfl
@[simp] theorem State.withPast_seqLen : (s.withPast tr rs).seqLen = s.seqLen := rfl
@[simp] theorem State.withPast_microOp : (s.withPast tr rs).microOp = s.microOp := rfl
@[simp] theorem State.withPast_writeFails : (s.withPast tr rs).writeFails = s.writeFails := rfl
@[simp] theorem State.withPast_presented : (s.withPast tr rs).presented = s.presented := rfl

@[simp] theorem State.respond_withPast (w : Word) (code : Code) (data : Word) :
    (s.withPast tr rs).respond w code data = (s.respond w code data).withPast tr rs := by
  simp [State.respond, State.withPast]

@[simp] theorem State.toIdle_withPast : (s.withPast tr rs).toIdle = s.toIdle.withPast tr rs := rfl
@[simp] theorem State.toFailed_withPast : (s.withPast tr rs).toFailed = s.toFailed.withPast tr rs := rfl
@[simp] theorem State.setPerr_withPast : (s.withPast tr rs).setPerr = s.setPerr.withPast tr rs := rfl
@[simp] theorem State.startSequence_withPast (c : Cur) :
    (s.withPast tr rs).startSequence c = (s.startSequence c).withPast tr rs := rfl
@[simp] theorem State.clearRsp_withPast : (s.withPast tr rs).clearRsp = s.clearRsp.withPast tr rs := rfl
@[simp] theorem State.popHost_withPast : (s.withPast tr rs).popHost = s.popHost.withPast tr rs := rfl
@[simp] theorem State.askedOracle_withPast :
    (s.withPast tr rs).askedOracle = s.askedOracle.withPast tr rs := rfl

@[simp] theorem State.hostWaits_withPast : (s.withPast tr rs).hostWaits = s.hostWaits.withPast tr rs := by
  unfold State.hostWaits
  rw [show (s.withPast tr rs).host = s.host from rfl]
  split <;> rfl

@[simp] theorem State.before_withPast (op : MicroOp) :
    (s.withPast tr rs).before op = (s.before op).withPast tr rs := by
  rw [State.before_eq, State.before_eq]
  rfl

@[simp] theorem State.after_withPast (op : MicroOp) :
    (s.withPast tr rs).after op = (s.after op).withPast tr rs := by
  rw [State.after_eq, State.after_eq]
  rfl

@[simp] theorem State.raise_withPast (e : Exn) (w : Word) :
    (s.withPast tr rs).raise e w = (s.raise e w).withPast tr rs := by
  cases e <;> simp [State.raise]

@[simp] theorem State.logEvent_withPast (e : Event) :
    (s.withPast tr rs).logEvent e = (s.logEvent e).withPast tr rs := by
  simp [State.logEvent, State.withPast]

@[simp] theorem State.driveSucceeds_withPast (x : Line) (high : Bool) :
    (s.withPast tr rs).driveSucceeds x high = (s.driveSucceeds x high).withPast tr rs := by
  unfold State.driveSucceeds
  rw [State.logEvent_withPast]
  rfl

@[simp] theorem State.driveFails_withPast (x : Line) (high : Bool) :
    (s.withPast tr rs).driveFails x high = (s.driveFails x high).withPast tr rs := by
  unfold State.driveFails
  rw [State.logEvent_withPast]
  rfl

@[simp] theorem State.finish_withPast : (s.withPast tr rs).finish = s.finish.withPast tr rs := by
  unfold State.finish
  rw [State.withPast_cur]
  split
  · rw [State.respond_withPast, State.toIdle_withPast]
  · rfl

@[simp] theorem State.advance_withPast : (s.withPast tr rs).advance = s.advance.withPast tr rs := by
  unfold State.advance
  rw [State.withPast_upc, State.withPast_seqLen]
  split_ifs
  · exact State.finish_withPast { s with upc := s.upc + 1 } tr rs
  · rfl

@[simp] theorem State.abandon_withPast : (s.withPast tr rs).abandon = s.abandon.withPast tr rs := by
  unfold State.abandon
  rw [State.withPast_mode, State.withPast_cur]
  split_ifs
  · rfl
  · split
    · exact State.raise_withPast s tr rs _ _
    · rfl

end

section
variable {s t : State} {tr : List Event} {rs : List Response}

theorem State.accept_withPast {f : State → State} (hf : f (s.withPast tr rs) = (f s).withPast tr rs)
    (h : s.accept f = .next t) : (s.withPast tr rs).accept f = .next (t.withPast tr rs) := by
  obtain ⟨hc, ⟨hm, rfl⟩ | ⟨hm, rfl⟩⟩ := State.accept_cases h
  · rw [State.accept_idle (s := s.withPast tr rs) f hc hm, hf]
  · exact State.accept_not_idle (s := t.withPast tr rs) f hc hm

theorem exec_withPast {i : Instr} (h : exec i s = .next t) :
    exec i (s.withPast tr rs) = .next (t.withPast tr rs) := by
  cases i with
  | setbit idx v =>
    rw [exec_setbit] at h ⊢
    refine State.accept_withPast ?_ h
    rw [State.withPast_cfg]
    split_ifs
    · exact State.respond_withPast { s with bits := s.bits.bitWrite idx v } tr rs _ _ _
    · exact State.raise_withPast s tr rs _ _
  | setall v =>
    rw [exec_setall] at h ⊢
    exact State.accept_withPast
      (State.respond_withPast { s with bits := Memory.fill s.cfg.n (fillByte v) } tr rs _ _ _) h
  | getbit idx =>
    rw [exec_getbit] at h ⊢
    refine State.accept_withPast ?_ h
    rw [State.withPast_cfg]
    split_ifs
    · exact State.respond_withPast s tr rs _ _ _
    · exact State.raise_withPast s tr rs _ _
  | rdbyte reg =>
    rw [exec_rdbyte] at h ⊢
    refine State.accept_withPast ?_ h
    rw [State.withPast_cfg]
    split_ifs
    · exact State.respond_withPast s tr rs _ _ _
    · exact State.raise_withPast s tr rs _ _
  | commit =>
    rw [exec_commit] at h ⊢
    exact State.accept_withPast (State.startSequence_withPast s tr rs _) h
  | setoe v =>
    rw [exec_setoe] at h ⊢
    refine State.accept_withPast ?_ h
    simp only [State.withPast_outputEnabled, State.withPast_cfg, State.withPast_writeFails,
      State.askedOracle_withPast, State.driveFails_withPast, State.driveSucceeds_withPast]
    split_ifs
    · exact State.respond_withPast s tr rs _ _ _
    · exact State.raise_withPast _ tr rs _ _
    · exact State.respond_withPast { s.askedOracle.driveSucceeds .oe (!v) with outputEnabled := v } tr rs _ _ _
    · exact State.respond_withPast s tr rs _ _ _
  | mreset =>
    rw [exec_mreset] at h ⊢
    refine State.accept_withPast ?_ h
    rw [State.withPast_cfg]
    split_ifs
    · exact State.startSequence_withPast s tr rs _
    · exact State.respond_withPast s tr rs _ _ _
  | status =>
    rw [exec_status] at h ⊢
    exact State.accept_withPast (State.respond_withPast s tr rs _ _ _) h

/-- The result of a micro-operation on a state with an earlier past. -/
def MicroResult.withPast (tr : List Event) (rs : List Response) : MicroResult → MicroResult
  | .done s => .done (s.withPast tr rs)
  | .pinFault s => .pinFault (s.withPast tr rs)
  | .noController s => .noController (s.withPast tr rs)

theorem State.perform_withPast (op : MicroOp) :
    (s.withPast tr rs).perform op = (s.perform op).withPast tr rs := by
  unfold State.perform
  rw [State.withPast_cfg, State.before_withPast, State.drive_eq, State.drive_eq, State.withPast_writeFails]
  split_ifs
  · rfl
  · refine congrArg MicroResult.pinFault ?_
    rw [State.askedOracle_withPast, State.driveFails_withPast]
  · refine congrArg MicroResult.done ?_
    rw [State.askedOracle_withPast, State.driveSucceeds_withPast, State.after_withPast]

theorem State.controllerStep_withPast (h : s.controllerStep = .next t) :
    (s.withPast tr rs).controllerStep = .next (t.withPast tr rs) := by
  unfold State.controllerStep at h ⊢
  rw [State.withPast_microOp]
  split at h
  · cases h
  · rw [State.perform_withPast]
    split at h <;> rename_i u hu <;> cases h <;> rw [hu]
    · exact congrArg Host.Outcome.next (State.advance_withPast u tr rs)
    · exact congrArg Host.Outcome.next (State.abandon_withPast u tr rs)
    · exact congrArg Host.Outcome.next (State.toFailed_withPast u tr rs)

theorem acceptWord_withPast {w : Word} (h : acceptWord w s = .next t) :
    acceptWord w (s.withPast tr rs) = .next (t.withPast tr rs) := by
  unfold acceptWord at h ⊢
  split at h
  · exact exec_withPast h
  · cases h
    rw [State.raise_withPast]

theorem State.run_withPast (h : s.run = .next t) : (s.withPast tr rs).run = .next (t.withPast tr rs) := by
  unfold State.run at h ⊢
  rw [State.withPast_mode, State.hostWaits_withPast, State.withPast_presented, State.popHost_withPast]
  split at h
  · exact State.controllerStep_withPast h
  · exact State.controllerStep_withPast h
  · split at h
    · exact acceptWord_withPast h
    · cases h
      rfl
  · cases h
    rfl

end

/-- Settles O57: a step without reset is `clearRsp` and `run`, and both commute with an earlier past. -/
theorem historiesNeverRead : Obligations.HistoriesNeverRead := by
  intro s t tr rs h hr
  have hc := (step_cases h).1
  rw [step_no_reset hc hr] at h
  show step (s.withPast tr rs) = .next (t.withPast tr rs)
  rw [step_no_reset (s := s.withPast tr rs) hc hr, State.clearRsp_withPast]
  exact State.run_withPast h

end Sys2Proof.Machine
end

section
/-! SUPPORT. One micro-operation as a function of the state (41_commit R112, 60_exceptions R175, R176): the write made,
the write failed, and what each leaves in each field. -/

namespace Sys2Proof.Machine

/-- The state when the write of `op` has succeeded, its state actions done, the sequence not yet advanced (R112). -/
def State.written (s : State) (op : MicroOp) : State :=
  { s.askedOracle.driveSucceeds op.line op.high with
    bits := if op.zeroesAfter then [] else if op.zeroesBefore then [] else s.bits }

/-- The state when the write of `op` has failed, the sequence not yet abandoned (R176). -/
def State.miswritten (s : State) (op : MicroOp) : State :=
  { s.askedOracle.driveFails op.line op.high with bits := if op.zeroesBefore then [] else s.bits }

section
variable (s : State) (op : MicroOp)

theorem State.after_driveSucceeds_before :
    ((s.before op).askedOracle.driveSucceeds op.line op.high).after op = s.written op := by
  rw [State.after_eq, State.before_eq]
  rfl

theorem State.driveFails_before : (s.before op).askedOracle.driveFails op.line op.high = s.miswritten op := by
  rw [State.before_eq]
  rfl

@[simp] theorem State.written_cfg : (s.written op).cfg = s.cfg := rfl
@[simp] theorem State.written_bits :
    (s.written op).bits = if op.zeroesAfter then [] else if op.zeroesBefore then [] else s.bits := rfl
@[simp] theorem State.written_lines : (s.written op).lines = s.lines.set op.line (Level.ofBool op.high) := rfl
@[simp] theorem State.written_outputEnabled : (s.written op).outputEnabled = s.outputEnabled := rfl
@[simp] theorem State.written_mode : (s.written op).mode = s.mode := rfl
@[simp] theorem State.written_cur : (s.written op).cur = s.cur := rfl
@[simp] theorem State.written_upc : (s.written op).upc = s.upc := rfl
@[simp] theorem State.written_perr : (s.written op).perr = s.perr := rfl
@[simp] theorem State.written_pf : (s.written op).pf = s.pf := rfl
@[simp] theorem State.written_rsp : (s.written op).rsp = s.rsp := rfl
@[simp] theorem State.written_chain :
    (s.written op).chain =
      s.chain.react s.cfg s.lines (s.lines.set op.line (Level.ofBool op.high)) op.line := rfl
@[simp] theorem State.written_trace :
    (s.written op).trace = s.trace ++ [.w op.line (Level.ofBool op.high)] := rfl
@[simp] theorem State.written_responses : (s.written op).responses = s.responses := rfl

@[simp] theorem State.miswritten_cfg : (s.miswritten op).cfg = s.cfg := rfl
@[simp] theorem State.miswritten_bits :
    (s.miswritten op).bits = if op.zeroesBefore then [] else s.bits := rfl
@[simp] theorem State.miswritten_lines :
    (s.miswritten op).lines = s.lines.set op.line (s.drawnLevel op.line (Level.ofBool op.high)) := rfl
@[simp] theorem State.miswritten_outputEnabled : (s.miswritten op).outputEnabled = s.outputEnabled := rfl
@[simp] theorem State.miswritten_mode : (s.miswritten op).mode = s.mode := rfl
@[simp] theorem State.miswritten_cur : (s.miswritten op).cur = s.cur := rfl
@[simp] theorem State.miswritten_perr : (s.miswritten op).perr = s.perr := rfl
@[simp] theorem State.miswritten_pf : (s.miswritten op).pf = true := rfl
@[simp] theorem State.miswritten_rsp : (s.miswritten op).rsp = s.rsp := rfl
@[simp] theorem State.miswritten_chain :
    (s.miswritten op).chain = s.chain.react s.cfg s.lines
      (s.lines.set op.line (s.drawnLevel op.line (Level.ofBool op.high))) op.line := rfl
@[simp] theorem State.miswritten_trace :
    (s.miswritten op).trace = s.trace ++ [.wf op.line (Level.ofBool op.high)] := rfl

end

/-- What the controller's step makes of the micro-operation `op` (R112, R175, R176). -/
def State.microStep (s : State) (op : MicroOp) : State :=
  if op.testsCtrl && !s.cfg.ctrlAvail then s.toFailed
  else if s.writeFails then (s.miswritten op).abandon
  else (s.written op).advance

/-- The controller's step at a position of its sequence is `microStep` of the micro-operation there. -/
theorem State.controllerStep_eq {s : State} {op : MicroOp} (hop : s.microOp = some op) :
    s.controllerStep = .next (s.microStep op) := by
  have hw : (s.before op).writeFails = s.writeFails := by rw [State.before_eq]; rfl
  unfold State.controllerStep State.perform State.microStep
  rw [hop, ← State.after_driveSucceeds_before, ← State.driveFails_before]
  dsimp only
  rw [State.drive_eq, hw]
  split_ifs <;> rfl

/-- If the controller's step answers a next state, the position names a micro-operation, and that was performed. -/
theorem State.microStep_of_controllerStep {s t : State} (h : s.controllerStep = .next t) :
    ∃ op, s.microOp = some op ∧ t = s.microStep op := by
  obtain ⟨op, hop, -⟩ := State.controllerStep_cases h
  rw [State.controllerStep_eq hop] at h
  cases h
  exact ⟨op, hop, rfl⟩

/-- A micro-operation fails its test, fails its write, or writes. -/
theorem State.microStep_cases (s : State) (op : MicroOp) :
    s.microStep op = s.toFailed ∨
      (s.writeFails = true ∧ s.microStep op = (s.miswritten op).abandon) ∨
      s.microStep op = (s.written op).advance := by
  unfold State.microStep
  split_ifs with htest hw
  · exact .inl rfl
  · exact .inr (.inl ⟨hw, rfl⟩)
  · exact .inr (.inr rfl)

end Sys2Proof.Machine
end

section
/-! SUPPORT. The invariant of the states a run can reach (10_state R20 to R28, 42_oe_mr_status R134,
45_chain_reference R154): the part that holds whatever the mode, the lines, the ends of a sequence, the three
sequences, the commands. -/

namespace Sys2Proof.Machine

/-! The lines. -/

@[simp] theorem Lines.set_ds (ln : Lines) (x : Line) (v : Level) :
    (ln.set x v).ds = if x = .ds then v else ln.ds := by cases x <;> rfl
@[simp] theorem Lines.set_shcp (ln : Lines) (x : Line) (v : Level) :
    (ln.set x v).shcp = if x = .shcp then v else ln.shcp := by cases x <;> rfl
@[simp] theorem Lines.set_stcp (ln : Lines) (x : Line) (v : Level) :
    (ln.set x v).stcp = if x = .stcp then v else ln.stcp := by cases x <;> rfl
@[simp] theorem Lines.set_oe (ln : Lines) (x : Line) (v : Level) :
    (ln.set x v).oe = if x = .oe then v else ln.oe := by cases x <;> rfl
@[simp] theorem Lines.set_mr (ln : Lines) (x : Line) (v : Level) :
    (ln.set x v).mr = if x = .mr then v else ln.mr := by cases x <;> rfl

theorem Level.ofBool_ne_z (b : Bool) : Level.ofBool b ≠ .z := by cases b <;> decide

/-- The role of a line is bound: always for the three mandatory lines, by its pin for an optional one (R25). -/
def Line.boundIn (c : Cfg) : Line → Bool
  | .ds => true
  | .shcp => true
  | .stcp => true
  | .oe => c.oeBound
  | .mr => c.mrBound

/-- Every bound line has been driven: what the invariant says of the lines in `IDLE` and `BUSY` (R24). -/
def State.AllDriven (s : State) : Prop := ∀ x, x.boundIn s.cfg = true → s.lines.get x ≠ .z

theorem State.allDriven_iff (s : State) :
    s.AllDriven ↔
      s.lines.ds ≠ .z ∧ s.lines.stcp ≠ .z ∧ s.lines.shcp ≠ .z ∧
        (s.cfg.oeBound = true → s.lines.oe ≠ .z) ∧ (s.cfg.mrBound = true → s.lines.mr ≠ .z) :=
  ⟨fun h => ⟨h .ds rfl, h .stcp rfl, h .shcp rfl, h .oe, h .mr⟩, fun ⟨hds, hst, hsh, hoe, hmr⟩ x =>
    match x with
    | .ds => fun _ => hds
    | .shcp => fun _ => hsh
    | .stcp => fun _ => hst
    | .oe => hoe
    | .mr => hmr⟩

/-- A write that leaves no line at `Z` keeps the driven lines driven. -/
theorem State.AllDriven.set {s t : State} {x : Line} {v : Level} (h : s.AllDriven) (hc : t.cfg = s.cfg)
    (hl : t.lines = s.lines.set x v) (hv : v ≠ .z ∨ v = s.lines.get x) : t.AllDriven := by
  intro y hy
  rw [hc] at hy
  rw [hl]
  by_cases hyx : y = x
  · subst hyx
    rw [Lines.get_set_same]
    rcases hv with hv | hv
    · exact hv
    · exact hv ▸ h y hy
  · rw [Lines.get_set_other _ _ hyx]
    exact h y hy

/-- A failed write leaves a driven level or the old one (R176). -/
theorem State.drawnLevel_ne_z_or (s : State) (x : Line) (high : Bool) :
    s.drawnLevel x (Level.ofBool high) ≠ .z ∨ s.drawnLevel x (Level.ofBool high) = s.lines.get x :=
  (s.drawnLevel_cases x _).imp_left fun hv => by
    rw [hv]
    exact Level.ofBool_ne_z high

/-! The chips (R150, R154). -/

theorem Chain.react_lengths (cfg : Cfg) (before after : Lines) (x : Line) (c : Chain) :
    (c.react cfg before after x).sh.length = c.sh.length ∧
      ((c.react cfg before after x).q.length = c.q.length ∨
        (c.react cfg before after x).q.length = c.sh.length) := by
  unfold Chain.react
  cases x with
  | ds | oe => exact ⟨rfl, .inl rfl⟩
  | mr | shcp | stcp => dsimp only; split_ifs <;> simp [Chain.clear, Chain.shift, Chain.latch]

/-- While `eff(MR)` is Low the shift stage stays zero, and a write that makes it Low zeroes it (R154). -/
theorem Chain.react_masterClear {cfg : Cfg} {ln : Lines} {x : Line} {v : Level} {c : Chain}
    (h : eff cfg ln .mr = .l → ∀ b ∈ c.sh, b = false) (hl : eff cfg (ln.set x v) .mr = .l) :
    ∀ b ∈ (c.react cfg ln (ln.set x v) x).sh, b = false := by
  have hclear : ∀ b ∈ c.clear.sh, b = false := fun b hb => List.eq_of_mem_replicate hb
  cases x with
  | mr => simpa only [Chain.react, hl, if_true] using hclear
  | shcp =>
    unfold Chain.react
    dsimp only
    rw [if_pos hl]
    split_ifs
    · exact hclear
    · exact h hl
  | stcp =>
    unfold Chain.react
    dsimp only
    split_ifs <;> exact h hl
  | oe => exact h hl
  | ds => exact h hl

/-! The part of the invariant that holds whatever the mode. -/

/-- The clauses of the invariant that do not name the mode or the position. -/
structure State.InvCore (s : State) : Prop where
  cfgWf : s.cfg.wf = true
  bankWf : s.bits.wf
  bankWithin : s.bits.within s.cfg.n
  chainLength : s.chain.sh.length = s.cfg.nbits ∧ s.chain.q.length = s.cfg.nbits
  oeUnbound : s.cfg.oeBound = false → s.outputEnabled = true ∧ s.lines.oe = .z
  mrUnbound : s.cfg.mrBound = false → s.lines.mr = .z
  noPinFault : s.cfg.pinFault = false → s.pf = false
  masterClear : eff s.cfg s.lines .mr = .l → ∀ b ∈ s.chain.sh, b = false

theorem State.Inv.core {s : State} (h : s.Inv) : s.InvCore := { h with }

/-- The core of the invariant is kept by the write of a bound line and by clearing the bank. -/
theorem State.InvCore.write {s t : State} {x : Line} {v : Level} (h : s.InvCore)
    (hx : x.boundIn s.cfg = true) (hcfg : t.cfg = s.cfg) (hbits : t.bits = s.bits ∨ t.bits = [])
    (hlines : t.lines = s.lines.set x v) (hoe : t.outputEnabled = s.outputEnabled ∨ x = .oe)
    (hchain : t.chain = s.chain.react s.cfg s.lines (s.lines.set x v) x)
    (hpf : t.pf = s.pf ∨ s.cfg.pinFault = true) : t.InvCore where
  cfgWf := hcfg ▸ h.cfgWf
  bankWf := by
    rcases hbits with hb | hb <;> rw [hb]
    · exact h.bankWf
    · exact ⟨.nil, by simp⟩
  bankWithin := by
    rcases hbits with hb | hb <;> rw [hb]
    · exact hcfg ▸ h.bankWithin
    · simp
  chainLength := by
    obtain ⟨hsh, hq⟩ := Chain.react_lengths s.cfg s.lines (s.lines.set x v) x s.chain
    obtain ⟨hsh0, hq0⟩ := h.chainLength
    rw [hchain, hcfg]
    exact ⟨hsh.trans hsh0, hq.elim (·.trans hq0) (·.trans hsh0)⟩
  oeUnbound := by
    intro hb
    rw [hcfg] at hb
    have hne : x ≠ .oe := fun he => by simp [he, Line.boundIn, hb] at hx
    rw [hlines, Lines.set_oe, if_neg hne, hoe.resolve_right hne]
    exact h.oeUnbound hb
  mrUnbound := by
    intro hb
    rw [hcfg] at hb
    have hne : x ≠ .mr := fun he => by simp [he, Line.boundIn, hb] at hx
    rw [hlines, Lines.set_mr, if_neg hne]
    exact h.mrUnbound hb
  noPinFault := by
    intro hp
    rw [hcfg] at hp
    rcases hpf with hpf | hpf
    · exact hpf ▸ h.noPinFault hp
    · rw [hp] at hpf
      cases hpf
  masterClear := by
    rw [hchain, hcfg, hlines]
    exact Chain.react_masterClear h.masterClear

theorem State.InvCore.withPosition {s : State} (h : s.InvCore) (mode : Mode) (cur : Cur) (upc : Nat) :
    { s with mode := mode, cur := cur, upc := upc }.InvCore := { h with }

theorem State.InvCore.written {s : State} {op : MicroOp} (h : s.InvCore)
    (hx : op.line.boundIn s.cfg = true) : (s.written op).InvCore :=
  h.write hx (by simp) (by rw [State.written_bits]; split_ifs <;> simp) (State.written_lines s op) (by simp)
    (State.written_chain s op) (by simp)

theorem State.InvCore.miswritten {s : State} {op : MicroOp} (h : s.InvCore)
    (hx : op.line.boundIn s.cfg = true) (hw : s.writeFails = true) : (s.miswritten op).InvCore :=
  h.write hx (by simp) (by rw [State.miswritten_bits]; split_ifs <;> simp) (State.miswritten_lines s op)
    (by simp) (State.miswritten_chain s op) (.inr (State.pinFault_of_writeFails hw))

/-! The ends of a sequence. -/

/-- A state at rest meets the invariant when its lines fit (R26, R134). -/
theorem State.InvCore.atRest {s : State} (h : s.InvCore) (hm : s.mode = .idle) (hc : s.cur = .none)
    (hu : s.upc = 0) (hd : s.AllDriven)
    (hoe : s.cfg.oeBound = true → s.pf = false → s.lines.oe = if s.outputEnabled then .l else .h)
    (hmr : s.cfg.mrBound = true → s.pf = false → s.lines.mr = .h) : s.Inv :=
  { h with
    position := by simp [State.positionFits, hm, hc, hu]
    driven := by simpa only [State.linesDriven, hm] using s.allDriven_iff.1 hd
    oeLine := by simpa only [State.oeLineFits, hm] using hoe
    mrLine := by simpa only [State.mrLineFits, hm] using hmr
    fresh := by simp [hm]
    bankCleared := by simp [hc] }

/-- A failed construction keeps what does not depend on the mode (R175). -/
theorem State.InvCore.toFailed {s : State} (h : s.InvCore) : s.toFailed.Inv :=
  { h with
    position := ⟨rfl, rfl⟩
    driven := trivial
    oeLine := fun _ _ => trivial
    mrLine := fun _ _ => trivial
    fresh := nofun
    bankCleared := nofun }

/-- The ports and the host's moves are not part of the invariant; answers and `PERR` are during construction only. -/
theorem State.Inv.withPorts {s : State} (h : s.Inv) (rsp : Option Response) (host : List HostMove) {perr : Bool}
    {responses : List Response} (hf : s.mode = .init → perr = s.perr ∧ responses = s.responses) :
    { s with rsp := rsp, host := host, perr := perr, responses := responses }.Inv :=
  { h with
    fresh := fun hm => by
      obtain ⟨hbits, hperr, hpf, hen, hresp⟩ := h.fresh hm
      obtain ⟨rfl, rfl⟩ := hf hm
      exact ⟨hbits, hperr, hpf, hen, hresp⟩ }

theorem State.Inv.respond {s : State} (h : s.Inv) (hm : s.mode ≠ .init) (w : Word) (code : Code) (data : Word) :
    (s.respond w code data).Inv := h.withPorts _ _ fun hi => absurd hi hm

theorem State.Inv.setPerr {s : State} (h : s.Inv) (hm : s.mode ≠ .init) : s.setPerr.Inv :=
  h.withPorts _ _ fun hi => absurd hi hm

/-- A running sequence that ends, with or without an answer, leaves a state at rest (R112). -/
theorem State.Inv.finish {s : State} (h : s.toIdle.Inv) : s.finish.Inv := by
  unfold State.finish
  split
  · exact h.respond (by simp) _ _ _
  · exact h

/-- After a failed write the lines need only be driven: `PF` is set (R176). -/
theorem State.InvCore.toIdle {s : State} (h : s.InvCore) (hpf : s.pf = true) (hd : s.AllDriven) : s.toIdle.Inv :=
  (h.withPosition .idle .none 0).atRest rfl rfl rfl hd (by simp [hpf]) (by simp [hpf])

/-- A failed write ends the sequence: construction has failed, a command is at rest with `PF` set (R176). -/
theorem State.InvCore.abandon {s : State} (h : s.InvCore) (hpf : s.pf = true)
    (hd : s.mode ≠ .init → s.AllDriven) : s.abandon.Inv := by
  unfold State.abandon
  split_ifs with hm
  · exact h.toFailed
  · split
    · exact (h.toIdle hpf (hd hm)).respond (by simp) _ _ _
    · exact h.toIdle hpf (hd hm)

/-! Construction (R191). -/

/-- The position at which construction first writes a line. -/
def initFirstWrite (cfg : Cfg) : Line → Nat
  | .ds => 0
  | .stcp => 1
  | .shcp => 2
  | .oe => 3
  | .mr => 3 + cfg.oeBound.toNat

theorem initFirstWrite_lt {cfg : Cfg} {x : Line} (hx : x.boundIn cfg = true) :
    initFirstWrite cfg x < initPrefixLen cfg := by
  cases x with
  | ds | stcp | shcp =>
    simp only [initFirstWrite, initPrefixLen]
    omega
  | oe =>
    have hb : cfg.oeBound = true := hx
    simp only [initFirstWrite, initPrefixLen, hb, Bool.toNat_true]
    omega
  | mr =>
    have hb : cfg.mrBound = true := hx
    simp only [initFirstWrite, initPrefixLen, hb, Bool.toNat_true]
    omega

theorem initOp_oe {cfg : Cfg} (bank : Memory) (hb : cfg.oeBound = true) :
    initOp cfg bank 3 = some (driveHigh .oe) := by
  cases hm : cfg.mrBound <;> simp [initOp, initPrefixLen, initOptional, hb, hm]

theorem initOp_mr {cfg : Cfg} (bank : Memory) (hb : cfg.mrBound = true) :
    initOp cfg bank (3 + cfg.oeBound.toNat) = some (driveHigh .mr) := by
  cases ho : cfg.oeBound <;> simp [initOp, initPrefixLen, initOptional, ho, hb]

/-- At its first position each bound line is written, an optional one High (R191, R194). -/
theorem initOp_firstWrite {cfg : Cfg} {bank : Memory} {x : Line} {op : MicroOp} (hx : x.boundIn cfg = true)
    (h : initOp cfg bank (initFirstWrite cfg x) = some op) :
    op.line = x ∧ (x = .oe ∨ x = .mr → op.high = true) := by
  cases x with
  | ds | stcp | shcp =>
    cases h
    exact ⟨rfl, by decide⟩
  | oe =>
    cases (initOp_oe bank hx).symm.trans h
    exact ⟨rfl, fun _ => rfl⟩
  | mr =>
    cases (initOp_mr bank hx).symm.trans h
    exact ⟨rfl, fun _ => rfl⟩

/-- Construction writes the optional lines at their first positions only, and only bound ones. -/
theorem initOp_optional {cfg : Cfg} {bank : Memory} {k : Nat} {op : MicroOp} (h : initOp cfg bank k = some op)
    (hop : op.line = .oe ∨ op.line = .mr) : op.line.boundIn cfg = true ∧ k = initFirstWrite cfg op.line := by
  obtain ⟨-, rfl⟩ | ⟨-, rfl⟩ | ⟨-, rfl⟩ | ⟨hb, hk, rfl⟩ | ⟨hb, hk, rfl⟩ | ⟨-, rfl⟩ | ⟨-, hc⟩ := initOp_cases h
  · simp [driveLow] at hop
  · simp [driveLow] at hop
  · simp [driveLow] at hop
  · exact ⟨hb, hk⟩
  · exact ⟨hb, hk⟩
  · simp [driveLow] at hop
  · obtain ⟨-, -, -, hoe, hmr⟩ := commitOp_plain hc
    exact (hop.elim hoe hmr).elim

/-- The bound lines whose first write of construction lies before `upc` have been driven (R24, R191). -/
def State.DrivenSoFar (s : State) : Prop :=
  ∀ x, x.boundIn s.cfg = true → initFirstWrite s.cfg x < s.upc → s.lines.get x ≠ .z

theorem State.drivenSoFar_iff (s : State) :
    s.DrivenSoFar ↔
      (0 < s.upc → s.lines.ds ≠ .z) ∧ (1 < s.upc → s.lines.stcp ≠ .z) ∧ (2 < s.upc → s.lines.shcp ≠ .z) ∧
        (s.cfg.oeBound = true → 3 < s.upc → s.lines.oe ≠ .z) ∧
        (s.cfg.mrBound = true → 3 + s.cfg.oeBound.toNat < s.upc → s.lines.mr ≠ .z) :=
  ⟨fun h => ⟨h .ds rfl, h .stcp rfl, h .shcp rfl, h .oe, h .mr⟩, fun ⟨hds, hst, hsh, hoe, hmr⟩ x =>
    match x with
    | .ds => fun _ => hds
    | .shcp => fun _ => hsh
    | .stcp => fun _ => hst
    | .oe => hoe
    | .mr => hmr⟩

/-- The optional lines during construction: released up to their first write, High from then on (R33, R191). -/
def State.OptionalFit (s : State) : Prop :=
  ∀ x, x = .oe ∨ x = .mr → x.boundIn s.cfg = true →
    s.lines.get x = if s.upc ≤ initFirstWrite s.cfg x then .z else .h

/-- What a reset sets and construction keeps (R33, R190). -/
def State.Fresh (s : State) : Prop :=
  s.bits = [] ∧ s.perr = false ∧ s.pf = false ∧ s.outputEnabled = !s.cfg.oeBound ∧ s.responses = []

/-- A state in construction meets the invariant when it is fresh and its lines fit the position. -/
theorem State.InvCore.constructing {s : State} (h : s.InvCore) (hm : s.mode = .init) (hc : s.cur = .init)
    (hu : s.upc < initLen s.cfg) (hd : s.DrivenSoFar) (ho : s.OptionalFit) (hf : s.Fresh) : s.Inv :=
  { h with
    position := by simpa only [State.positionFits, hm] using ⟨hc, hu⟩
    driven := by simpa only [State.linesDriven, hm] using s.drivenSoFar_iff.1 hd
    oeLine := by
      intro hb _
      obtain ⟨-, -, -, hen, -⟩ := hf
      simpa only [State.oeLineFits, hm, hen, hb] using ⟨rfl, ho .oe (.inl rfl) hb⟩
    mrLine := by
      intro hb _
      simp only [State.mrLineFits, hm]
      exact ho .mr (.inr rfl) hb
    fresh := fun _ => hf
    bankCleared := by simp [hc] }

/-- What the invariant says of a state in construction. -/
theorem State.Inv.construction {s : State} (h : s.Inv) (hm : s.mode = .init) :
    s.cur = .init ∧ s.upc < initLen s.cfg ∧ s.DrivenSoFar ∧ s.OptionalFit ∧ s.Fresh := by
  have hpos := h.position
  have hd := h.driven
  have hoe := h.oeLine
  have hmr := h.mrLine
  have hf := h.fresh hm
  obtain ⟨-, -, hpf, -⟩ := id hf
  simp only [State.positionFits, State.linesDriven, State.oeLineFits, State.mrLineFits, hm] at hpos hd hoe hmr
  refine ⟨hpos.1, hpos.2, s.drivenSoFar_iff.2 hd, ?_, hf⟩
  rintro x (rfl | rfl) hb
  · exact (hoe hb hpf).2
  · exact hmr hb hpf

section
variable {s : State} {op : MicroOp} (hop : initOp s.cfg s.bits s.upc = some op)
include hop

theorem State.DrivenSoFar.written (h : s.DrivenSoFar) {x : Line} (hx : x.boundIn s.cfg = true)
    (hlt : initFirstWrite s.cfg x < s.upc + 1) : (s.written op).lines.get x ≠ .z := by
  rw [State.written_lines]
  by_cases hxop : x = op.line
  · rw [hxop, Lines.get_set_same]
    exact Level.ofBool_ne_z _
  · rw [Lines.get_set_other _ _ hxop]
    have hne : s.upc ≠ initFirstWrite s.cfg x := fun heq => hxop (initOp_firstWrite hx (heq ▸ hop)).1.symm
    exact h x hx (by omega)

theorem State.OptionalFit.written (h : s.OptionalFit) {x : Line} (hx : x = .oe ∨ x = .mr)
    (hb : x.boundIn s.cfg = true) :
    (s.written op).lines.get x = if s.upc + 1 ≤ initFirstWrite s.cfg x then .z else .h := by
  rw [State.written_lines]
  by_cases hpos : s.upc = initFirstWrite s.cfg x
  · obtain ⟨hline, hhigh⟩ := initOp_firstWrite hb (hpos ▸ hop)
    rw [hline, Lines.get_set_same, hhigh hx, if_neg (by omega)]
    rfl
  · have hne : x ≠ op.line := by
      rintro rfl
      exact hpos (initOp_optional hop hx).2
    have hbefore : s.upc ≤ initFirstWrite s.cfg x ↔ s.upc + 1 ≤ initFirstWrite s.cfg x := by omega
    rw [Lines.get_set_other _ _ hne, h x hx hb]
    simp only [hbefore]

end

theorem State.Fresh.written {s : State} (h : s.Fresh) (op : MicroOp) : (s.written op).Fresh := by
  obtain ⟨hbits, hperr, hpf, hen, hresp⟩ := h
  exact ⟨by simp [hbits], by simpa using hperr, by simpa using hpf, by simpa using hen, by simpa using hresp⟩

/-- A successful write of construction leads to the next position or to `IDLE` (R191). -/
theorem State.Inv.initWritten {s : State} {op : MicroOp} (h : s.Inv) (hm : s.mode = .init)
    (hop : initOp s.cfg s.bits s.upc = some op) (hx : op.line.boundIn s.cfg = true) :
    (s.written op).advance.Inv := by
  obtain ⟨hc, hu, hd, ho, hf⟩ := h.construction hm
  have hcore := h.core.written hx
  unfold State.advance
  split_ifs with hend
  · have hlast : s.upc + 1 = initLen s.cfg := by simpa [State.seqLen, hc] using hend
    have hfirst : ∀ x : Line, x.boundIn s.cfg = true → initFirstWrite s.cfg x < s.upc + 1 := fun x hb => by
      have := initFirstWrite_lt hb
      unfold initLen at hlast
      omega
    have hhigh : ∀ x, x = .oe ∨ x = .mr → x.boundIn s.cfg = true → (s.written op).lines.get x = .h :=
      fun x hx hb => by rw [ho.written hop hx hb, if_neg (Nat.not_le.2 (hfirst x hb))]
    obtain ⟨-, -, -, hen, -⟩ := hf.written op
    refine State.Inv.finish ((hcore.withPosition .idle .none 0).atRest rfl rfl rfl (fun x hb => ?_)
      (fun hb _ => ?_) (fun hb _ => ?_))
    · simp only [State.written_cfg] at hb
      exact hd.written hop hb (hfirst x hb)
    · simp only [State.written_cfg] at hb hen ⊢
      rw [hen, hb]
      exact hhigh .oe (.inl rfl) hb
    · simp only [State.written_cfg] at hb
      exact hhigh .mr (.inr rfl) hb
  · have hnext : s.upc + 1 ≠ initLen s.cfg := by simpa [State.seqLen, hc] using hend
    refine (hcore.withPosition _ _ (s.upc + 1)).constructing (by simpa using hm) (by simpa using hc) ?_ ?_ ?_
      (hf.written op)
    · simp only [State.written_cfg]
      omega
    · intro x hb hlt
      simp only [State.written_cfg] at hb hlt
      exact hd.written hop hb hlt
    · intro x hx hb
      simp only [State.written_cfg] at hb ⊢
      exact ho.written hop hx hb

/-! Running commands (R111, R134). -/

/-- A state running a command meets the invariant when its lines fit the position. -/
theorem State.InvCore.running {s : State} (h : s.InvCore) (hm : s.mode = .busy)
    (hc : s.cur = .commit ∨ s.cur = .mreset ∧ s.cfg.mrBound = true) (hu : s.upc < s.seqLen) (hd : s.AllDriven)
    (hoe : s.cfg.oeBound = true → s.pf = false → s.lines.oe = if s.outputEnabled then .l else .h)
    (hmr : s.cfg.mrBound = true → s.pf = false → s.lines.mr = if s.cur = .mreset ∧ 0 < s.upc then .l else .h)
    (hz : s.cur = .mreset → 0 < s.upc → s.bits = []) : s.Inv :=
  { h with
    position := by
      simp only [State.positionFits, hm]
      rcases hc with hc | ⟨hc, hb⟩ <;> simp only [State.seqLen, hc] at hu
      · exact .inl ⟨hc, hu⟩
      · exact .inr ⟨hc, hb, hu⟩
    driven := by simpa only [State.linesDriven, hm] using s.allDriven_iff.1 hd
    oeLine := by simpa only [State.oeLineFits, hm] using hoe
    mrLine := by simpa only [State.mrLineFits, hm] using hmr
    fresh := by simp [hm]
    bankCleared := hz }

theorem State.Inv.allDriven {s : State} (h : s.Inv) (hm : s.mode = .idle ∨ s.mode = .busy) : s.AllDriven := by
  have hd := h.driven
  rcases hm with hm | hm <;> simp only [State.linesDriven, hm] at hd <;> exact s.allDriven_iff.2 hd

theorem State.Inv.oeMirrors {s : State} (h : s.Inv) (hm : s.mode = .idle ∨ s.mode = .busy)
    (hb : s.cfg.oeBound = true) (hpf : s.pf = false) :
    s.lines.oe = if s.outputEnabled then .l else .h := by
  have hoe := h.oeLine hb hpf
  rcases hm with hm | hm <;> simpa only [State.oeLineFits, hm] using hoe

/-- A successful write of a running command that leaves the Master-Clear line and the bank as the next position asks
leads to a state that meets the invariant (R112). -/
theorem State.Inv.busyWritten {s : State} {op : MicroOp} (h : s.Inv) (hm : s.mode = .busy)
    (hx : op.line.boundIn s.cfg = true) (hoe : op.line ≠ .oe)
    (hmrOn : s.upc + 1 ≠ s.seqLen → s.cfg.mrBound = true → s.pf = false →
      (s.written op).lines.mr = if s.cur = .mreset then .l else .h)
    (hmrEnd : s.upc + 1 = s.seqLen → s.cfg.mrBound = true → s.pf = false → (s.written op).lines.mr = .h)
    (hz : s.cur = .mreset → (s.written op).bits = []) : (s.written op).advance.Inv := by
  have hcore := h.core.written hx
  have hdriven : (s.written op).AllDriven :=
    (h.allDriven (.inr hm)).set rfl rfl (.inl (Level.ofBool_ne_z op.high))
  have hmirror : s.cfg.oeBound = true → s.pf = false →
      (s.written op).lines.oe = if s.outputEnabled then .l else .h := fun hb hpf => by
    rw [State.written_lines, Lines.set_oe, if_neg hoe, h.oeMirrors (.inr hm) hb hpf]
  have hpos := h.position
  simp only [State.positionFits, hm] at hpos
  have hcur : s.cur = .commit ∨ s.cur = .mreset ∧ s.cfg.mrBound = true :=
    hpos.imp (·.1) fun ⟨hc, hb, _⟩ => ⟨hc, hb⟩
  have hlt : s.upc < s.seqLen := by
    rcases hpos with ⟨hc, hu⟩ | ⟨hc, -, hu⟩ <;> simpa only [State.seqLen, hc] using hu
  unfold State.advance
  split_ifs with hend
  · exact State.Inv.finish ((hcore.withPosition .idle .none 0).atRest rfl rfl rfl hdriven hmirror (hmrEnd hend))
  · have hu : s.upc + 1 < s.seqLen := Nat.lt_of_le_of_ne hlt hend
    refine (hcore.withPosition _ _ (s.upc + 1)).running hm hcur hu hdriven hmirror (fun hb hpf => ?_)
      (fun hc _ => hz hc)
    simpa using hmrOn hend hb hpf

theorem Line.boundIn_of_mandatory {x : Line} (c : Cfg) (hoe : x ≠ .oe) (hmr : x ≠ .mr) :
    x.boundIn c = true := by
  cases x with
  | oe => exact absurd rfl hoe
  | mr => exact absurd rfl hmr
  | ds | shcp | stcp => rfl

theorem commitOp_boundIn {n : Nat} {bank : Memory} {k : Nat} {op : MicroOp} (cfg : Cfg)
    (h : commitOp n bank k = some op) : op.line.boundIn cfg = true := by
  obtain ⟨-, -, -, hoe, hmr⟩ := commitOp_plain h
  exact Line.boundIn_of_mandatory cfg hoe hmr

/-- Every micro-operation writes a bound line (R25). -/
theorem State.microOp_boundIn {s : State} {op : MicroOp} (h : s.microOp = some op) :
    op.line.boundIn s.cfg = true := by
  unfold State.microOp at h
  split at h
  · cases h
  · by_cases hopt : op.line = .oe ∨ op.line = .mr
    · exact (initOp_optional h hopt).1
    · exact Line.boundIn_of_mandatory _ (fun he => hopt (.inl he)) (fun he => hopt (.inr he))
  · exact commitOp_boundIn _ h
  · obtain ⟨hb, ⟨-, rfl⟩ | ⟨-, -, hcommit⟩ | ⟨-, rfl⟩⟩ := mresetOp_cases h
    · exact hb
    · exact commitOp_boundIn _ hcommit
    · exact hb

/-- The Master-Clear line while a command runs (R134). -/
theorem State.Inv.mrRunning {s : State} (h : s.Inv) (hm : s.mode = .busy) (hb : s.cfg.mrBound = true)
    (hpf : s.pf = false) : s.lines.mr = if s.cur = .mreset ∧ 0 < s.upc then .l else .h := by
  simpa only [State.mrLineFits, hm] using h.mrLine hb hpf

theorem State.Inv.commitWritten {s : State} {op : MicroOp} (h : s.Inv) (hm : s.mode = .busy)
    (hc : s.cur = .commit) (hop : commitOp s.cfg.n s.bits s.upc = some op) : (s.written op).advance.Inv := by
  obtain ⟨-, -, -, hoe, hmr⟩ := commitOp_plain hop
  have hhigh : s.cfg.mrBound = true → s.pf = false → (s.written op).lines.mr = .h := fun hb hpf => by
    rw [State.written_lines, Lines.set_mr, if_neg hmr, h.mrRunning hm hb hpf, hc]
    rfl
  exact h.busyWritten hm (commitOp_boundIn _ hop) hoe (fun _ hb hpf => by rw [hhigh hb hpf, hc]; rfl)
    (fun _ => hhigh) (fun he => by rw [hc] at he; cases he)

/-- MRESET: Low and the bank zeroed at the first position, High at the last, neither touched between (R134). -/
theorem State.Inv.mresetWritten {s : State} {op : MicroOp} (h : s.Inv) (hm : s.mode = .busy)
    (hc : s.cur = .mreset) (hop : mresetOp s.cfg s.bits s.upc = some op) : (s.written op).advance.Inv := by
  have hx : op.line.boundIn s.cfg = true := State.microOp_boundIn (by simpa only [State.microOp, hc] using hop)
  have hlen : s.seqLen = 24 * s.cfg.n + 4 := by simp only [State.seqLen, hc, mresetLen]
  obtain ⟨-, ⟨hk, rfl⟩ | ⟨hk, hle, hcommit⟩ | ⟨hk, rfl⟩⟩ := mresetOp_cases hop
  · exact h.busyWritten hm hx (by decide) (fun _ _ _ => by rw [if_pos hc]; rfl) (fun hend => by omega) (fun _ => rfl)
  · obtain ⟨-, hbefore, hafter, hoe, hmr⟩ := commitOp_plain hcommit
    refine h.busyWritten hm hx hoe (fun _ hb hpf => ?_) (fun hend => by omega) (fun _ => ?_)
    · rw [State.written_lines, Lines.set_mr, if_neg hmr, h.mrRunning hm hb hpf]
      simp [hc, hk]
    · simp [hbefore, hafter, h.bankCleared hc hk]
  · exact h.busyWritten hm hx (by decide) (fun hend => by omega) (fun _ _ _ => rfl)
      (fun _ => h.bankCleared hc (by omega))

/-- A controller's step keeps the invariant (R112, R175, R176). -/
theorem State.Inv.controllerStep {s t : State} (h : s.Inv) (hm : s.mode = .init ∨ s.mode = .busy)
    (ht : s.controllerStep = .next t) : t.Inv := by
  obtain ⟨op, hop, rfl⟩ := State.microStep_of_controllerStep ht
  have hx := State.microOp_boundIn hop
  rcases State.microStep_cases s op with heq | ⟨hw, heq⟩ | heq <;> rw [heq]
  · exact h.core.toFailed
  · refine (h.core.miswritten hx hw).abandon rfl fun hne => ?_
    exact (h.allDriven (.inr (hm.resolve_left hne))).set rfl rfl (s.drawnLevel_ne_z_or op.line op.high)
  · unfold State.microOp at hop
    have hpos := h.position
    rcases hm with hm | hm <;> simp only [State.positionFits, hm] at hpos
    · rw [hpos.1] at hop
      exact h.initWritten hm hop hx
    · rcases hpos with ⟨hc, -⟩ | ⟨hc, -, -⟩ <;> rw [hc] at hop
      · exact h.commitWritten hm hc hop
      · exact h.mresetWritten hm hc hop

/-! Commands (R27). -/

/-- What the invariant says of a state at rest. -/
theorem State.Inv.atIdle {s : State} (h : s.Inv) (hm : s.mode = .idle) :
    s.cur = .none ∧ s.upc = 0 ∧ (s.cfg.mrBound = true → s.pf = false → s.lines.mr = .h) := by
  have hpos := h.position
  have hmr := h.mrLine
  simp only [State.positionFits, State.mrLineFits, hm] at hpos hmr
  exact ⟨hpos.1, hpos.2, hmr⟩

theorem regIndex_lt {cfg : Cfg} {idx : Nat} (h : bitInRange cfg idx = true) : regIndex idx < cfg.n :=
  Nat.div_lt_of_lt_mul (of_decide_eq_true h)

theorem State.Inv.withBits {s : State} (h : s.Inv) (hm : s.mode = .idle) {bank : Memory} (hwf : bank.wf)
    (hwithin : bank.within s.cfg.n) : { s with bits := bank }.Inv := by
  obtain ⟨hc, hu, hmr⟩ := h.atIdle hm
  have hcore : { s with bits := bank }.InvCore := { h.core with bankWf := hwf, bankWithin := hwithin }
  exact hcore.atRest hm hc hu (h.allDriven (.inl hm)) (h.oeMirrors (.inl hm)) hmr

/-- Accepting a command whose sequence exists (R112, R134). -/
theorem State.Inv.startSequence {s : State} (h : s.Inv) (hm : s.mode = .idle) {c : Cur}
    (hc : c = .commit ∨ c = .mreset ∧ s.cfg.mrBound = true) : (s.startSequence c).Inv := by
  obtain ⟨-, -, hmr⟩ := h.atIdle hm
  refine (h.core.withPosition .busy c 0).running rfl hc ?_ (h.allDriven (.inl hm)) (h.oeMirrors (.inl hm))
    (fun hb hpf => by simpa using hmr hb hpf) (fun _ hlt => absurd hlt (Nat.lt_irrefl 0))
  rcases hc with rfl | ⟨rfl, -⟩ <;> exact Nat.succ_pos _

/-- A SETOE that writes: the line and the cached state change together (R26, R131). -/
theorem State.Inv.setoeDone {s : State} (h : s.Inv) (hm : s.mode = .idle) (hb : s.cfg.oeBound = true) (v : Bool) :
    { s.askedOracle.driveSucceeds .oe (!v) with outputEnabled := v }.Inv := by
  obtain ⟨hc, hu, hmr⟩ := h.atIdle hm
  have hcore : { s.askedOracle.driveSucceeds .oe (!v) with outputEnabled := v }.InvCore :=
    h.core.write (x := .oe) hb rfl (.inl rfl) rfl (.inr rfl) rfl (.inl rfl)
  refine hcore.atRest hm hc hu ?_ (fun _ _ => by cases v <;> rfl) hmr
  exact (h.allDriven (.inl hm)).set (x := .oe) rfl rfl (.inl (Level.ofBool_ne_z (!v)))

/-- A SETOE whose write fails (R176). -/
theorem State.Inv.setoeFailed {s : State} (h : s.Inv) (hm : s.mode = .idle) (hb : s.cfg.oeBound = true)
    (hw : s.writeFails = true) (high : Bool) : (s.askedOracle.driveFails .oe high).toIdle.Inv := by
  have hcore : (s.askedOracle.driveFails .oe high).InvCore :=
    h.core.write (x := .oe) hb rfl (.inl rfl) rfl (.inl rfl) rfl (.inr (State.pinFault_of_writeFails hw))
  exact hcore.toIdle rfl ((h.allDriven (.inl hm)).set (x := .oe) rfl rfl (s.drawnLevel_ne_z_or .oe high))

theorem State.Inv.accept {s t : State} {f : State → State} (h : s.Inv) (hf : s.mode = .idle → (f s).Inv)
    (ht : s.accept f = .next t) : t.Inv := by
  obtain ⟨-, ⟨hm, rfl⟩ | ⟨-, rfl⟩⟩ := State.accept_cases ht
  · exact hf hm
  · exact h

/-- Every command keeps the invariant. -/
theorem State.Inv.exec {s t : State} {i : Instr} (h : s.Inv) (ht : exec i s = .next t) : t.Inv := by
  have respond : s.mode = .idle → ∀ w code data, (s.respond w code data).Inv := fun hm =>
    h.respond (by simp [hm])
  have range : s.mode = .idle → ∀ w, (s.raise .range w).Inv := fun hm w =>
    (h.setPerr (by simp [hm])).respond (by simp [hm]) w .errRange 0
  cases i with
  | setbit idx v =>
    refine h.accept (fun hm => ?_) (exec_setbit idx v s ▸ ht)
    split_ifs with hr
    · have hwithin := Memory.within_write h.bankWithin (regIndex_lt hr)
      exact (h.withBits hm (Memory.wf_bitWrite h.bankWf idx v) (hwithin _)).respond (by simp [hm]) _ _ _
    · exact range hm _
  | setall v =>
    refine h.accept (fun hm => ?_) (exec_setall v s ▸ ht)
    exact (h.withBits hm (Memory.wf_fill _ _) (Memory.within_fill _ _)).respond (by simp [hm]) _ _ _
  | getbit idx =>
    refine h.accept (fun hm => ?_) (exec_getbit idx s ▸ ht)
    split_ifs
    · exact respond hm _ _ _
    · exact range hm _
  | rdbyte reg =>
    refine h.accept (fun hm => ?_) (exec_rdbyte reg s ▸ ht)
    split_ifs
    · exact respond hm _ _ _
    · exact range hm _
  | commit => exact h.accept (fun hm => h.startSequence hm (.inl rfl)) (exec_commit s ▸ ht)
  | setoe v =>
    refine h.accept (fun hm => ?_) (exec_setoe v s ▸ ht)
    split_ifs with hv hb hw
    · exact respond hm _ _ _
    · exact (h.setoeFailed hm hb hw _).respond (by simp) _ _ _
    · exact (h.setoeDone hm hb v).respond (by simp [hm]) _ _ _
    · exact respond hm _ _ _
  | mreset =>
    refine h.accept (fun hm => ?_) (exec_mreset s ▸ ht)
    split_ifs with hb
    · exact h.startSequence hm (.inr ⟨rfl, hb⟩)
    · exact respond hm _ _ _
  | status => exact h.accept (fun hm => respond hm _ _ _) (exec_status s ▸ ht)

/-! Reset, and the step. -/

/-- The values a reset sets meet the invariant before any chips of the right length (R33, R150). -/
theorem State.inv_of_reset {s : State} (hcfg : s.cfg.wf = true) (hmode : s.mode = .init) (hcur : s.cur = .init)
    (hupc : s.upc = 0) (hfresh : s.Fresh) (hlines : s.lines = Lines.released)
    (hchain : s.chain.sh.length = s.cfg.nbits ∧ s.chain.q.length = s.cfg.nbits) : s.Inv := by
  obtain ⟨hbits, -, hpf, hen, -⟩ := id hfresh
  have heff : eff s.cfg s.lines .mr = .h := by
    rw [hlines, eff]
    split_ifs <;> rfl
  have hz : ∀ x, s.lines.get x = .z := fun x => by rw [hlines]; cases x <;> rfl
  have hcore : s.InvCore :=
    { cfgWf := hcfg
      bankWf := hbits ▸ ⟨.nil, by simp⟩
      bankWithin := by simp [hbits]
      chainLength := hchain
      oeUnbound := fun hb => ⟨by simp [hen, hb], hz .oe⟩
      mrUnbound := fun _ => hz .mr
      noPinFault := fun _ => hpf
      masterClear := fun hl => by rw [heff] at hl; cases hl }
  refine hcore.constructing hmode hcur ?_ (fun x _ hlt => ?_) (fun x _ _ => ?_) hfresh
  · rw [hupc]
    exact Nat.succ_pos _
  · exact absurd hlt (by omega)
  · rw [hz, if_pos (by omega)]

theorem State.inv_powerUp {cfg : Cfg} (hc : cfg.wf = true) : (State.powerUp cfg).Inv :=
  State.inv_of_reset hc rfl rfl rfl ⟨rfl, rfl, rfl, rfl, rfl⟩ rfl
    ⟨by simp [State.powerUp, Chain.powerUp, Cfg.nbits], by simp [State.powerUp, Chain.powerUp, Cfg.nbits]⟩

theorem State.Inv.assertRst {s : State} (h : s.Inv) (avail : Bool) : (s.assertRst avail).Inv :=
  State.inv_of_reset h.cfgWf rfl rfl rfl ⟨rfl, rfl, rfl, rfl, rfl⟩ rfl h.chainLength

/-- Settles O51: power-up is a reset before chips of `8*N` stages. -/
theorem invariantHoldsAtReset : Obligations.InvariantHoldsAtReset :=
  ⟨State.inv_powerUp (by decide), fun _ hc => State.inv_powerUp hc⟩

/-- The host's move and the end of an earlier answer keep the invariant (R32). -/
theorem State.Inv.clearRsp {s : State} (h : s.Inv) : s.clearRsp.Inv := h.withPorts none s.host fun _ => ⟨rfl, rfl⟩

theorem State.Inv.popHost {s : State} (h : s.Inv) : s.popHost.Inv := h.withPorts s.rsp s.host.tail fun _ => ⟨rfl, rfl⟩

theorem State.Inv.hostWaits {s : State} (h : s.Inv) : s.hostWaits.Inv := by
  rw [State.hostWaits_eq]
  exact h.withPorts s.rsp _ fun _ => ⟨rfl, rfl⟩

/-- Settles O52: each of the ways a step can go keeps the invariant. -/
theorem stepKeepsInvariant : Obligations.StepKeepsInvariant := by
  intro s t h hstep
  obtain ⟨-, ⟨avail, rest, -, rfl⟩ | ⟨-, hm, hctl⟩ | ⟨-, -, w, rest, i, -, -, hexec⟩ |
    ⟨-, hm, w, rest, e, -, -, rfl⟩ | ⟨-, -, rfl⟩⟩ := step_cases hstep
  · exact h.popHost.assertRst avail
  · exact h.clearRsp.hostWaits.controllerStep (by simpa using hm) hctl
  · exact h.clearRsp.popHost.exec hexec
  · exact (h.clearRsp.popHost.setPerr (by simp [hm])).respond (by simp [hm]) w .errIllegal 0
  · exact h.clearRsp.hostWaits

end Sys2Proof.Machine
end

section
/-! SUPPORT. The block never reads the chips (10_state R20, R24, R31, R35): other chips before an operation mean other
chips after it and nothing else. -/

namespace Sys2Proof.Machine

/-- The state with the chips' contents `c`. -/
def State.withChain (s : State) (c : Chain) : State := { s with chain := c }

/-- An operation that does not read the chips: with other chips it answers the same in everything but the chips. -/
def ChainBlind (f : State → State) : Prop := ∀ s c, ∃ c', f (s.withChain c) = (f s).withChain c'

namespace ChainBlind

/-! The operations, one fact each; all their other fields are computed from fields other than the chips. -/

theorem respond (w : Word) (code : Code) (data : Word) : ChainBlind (·.respond w code data) := fun _ c => ⟨c, rfl⟩
theorem toIdle : ChainBlind State.toIdle := fun _ c => ⟨c, rfl⟩
theorem toFailed : ChainBlind State.toFailed := fun _ c => ⟨c, rfl⟩
theorem startSequence (k : Cur) : ChainBlind (·.startSequence k) := fun _ c => ⟨c, rfl⟩
theorem assertRst (avail : Bool) : ChainBlind (·.assertRst avail) := fun _ c => ⟨c, rfl⟩
theorem clearRsp : ChainBlind State.clearRsp := fun _ c => ⟨c, rfl⟩
theorem popHost : ChainBlind State.popHost := fun _ c => ⟨c, rfl⟩

theorem raise (e : Exn) (w : Word) : ChainBlind (·.raise e w) := fun _ c => by cases e <;> exact ⟨c, rfl⟩

theorem hostWaits : ChainBlind State.hostWaits := fun s c => by
  refine ⟨c, ?_⟩
  unfold State.hostWaits
  rw [show (s.withChain c).host = s.host from rfl]
  split <;> rfl

/-- The write of a line reads the chips for their own reaction only (R152). -/
theorem written (op : MicroOp) : ChainBlind (·.written op) := fun _ _ => ⟨_, rfl⟩
theorem miswritten (op : MicroOp) : ChainBlind (·.miswritten op) := fun _ _ => ⟨_, rfl⟩

theorem comp {f g : State → State} (hf : ChainBlind f) (hg : ChainBlind g) : ChainBlind (fun s => f (g s)) :=
  fun s c => by
    obtain ⟨c', hc'⟩ := hg s c
    obtain ⟨c'', hc''⟩ := hf (g s) c'
    exact ⟨c'', (congrArg f hc').trans hc''⟩

/-- A choice by a condition that does not read the chips. -/
theorem ite {p : State → Prop} [DecidablePred p] {f g : State → State} (hp : ∀ s c, p (s.withChain c) = p s)
    (hf : ChainBlind f) (hg : ChainBlind g) : ChainBlind (fun s => if p s then f s else g s) := fun s c => by
  by_cases h : p s
  · simpa only [hp, h, if_true] using hf s c
  · simpa only [hp, h, if_false] using hg s c

theorem finish : ChainBlind State.finish := fun s c => by
  unfold State.finish
  rw [show (s.withChain c).cur = s.cur from rfl]
  split <;> exact ⟨c, rfl⟩

theorem advance : ChainBlind State.advance :=
  ite (p := fun s => s.upc + 1 = s.seqLen) (fun _ _ => rfl) (finish.comp fun _ c => ⟨c, rfl⟩) fun _ c => ⟨c, rfl⟩

theorem abandon : ChainBlind State.abandon := fun s c => by
  unfold State.abandon
  rw [show (s.withChain c).mode = s.mode from rfl, show (s.withChain c).cur = s.cur from rfl]
  split_ifs
  · exact ⟨c, rfl⟩
  · split <;> exact ⟨c, rfl⟩

/-- A micro-operation does not read the chips (R112). -/
theorem microStep (op : MicroOp) : ChainBlind (·.microStep op) :=
  ite (p := fun s => (op.testsCtrl && !s.cfg.ctrlAvail) = true) (fun _ _ => rfl) toFailed
    (ite (p := fun s => s.writeFails = true) (fun _ _ => rfl) (abandon.comp (miswritten op))
      (advance.comp (written op)))

end ChainBlind

/-- A step or command that does not read the chips. -/
def ChainBlindOutcome (g : State → Host.Outcome State Fault Refusal) : Prop :=
  ∀ s t c, g s = .next t → ∃ c', g (s.withChain c) = .next (t.withChain c')

namespace ChainBlindOutcome

theorem next {f : State → State} (hf : ChainBlind f) : ChainBlindOutcome (fun s => .next (f s)) := by
  intro s t c h
  cases h
  obtain ⟨c', hc'⟩ := hf s c
  exact ⟨c', congrArg _ hc'⟩

theorem comp {g : State → Host.Outcome State Fault Refusal} {f : State → State} (hg : ChainBlindOutcome g)
    (hf : ChainBlind f) : ChainBlindOutcome (fun s => g (f s)) := by
  intro s t c h
  obtain ⟨c', hc'⟩ := hf s c
  simp only [hc']
  exact hg _ _ _ h

theorem accept {f : State → State} (hf : ChainBlind f) : ChainBlindOutcome (·.accept f) := by
  intro s t c h
  obtain ⟨hc, ⟨hm, rfl⟩ | ⟨hm, rfl⟩⟩ := State.accept_cases h
  · obtain ⟨c', hc'⟩ := hf s c
    exact ⟨c', (State.accept_idle (s := s.withChain c) f hc hm).trans (congrArg _ hc')⟩
  · exact ⟨c, State.accept_not_idle (s := t.withChain c) f hc hm⟩

/-- No command reads the chips. -/
theorem exec (i : Instr) : ChainBlindOutcome (exec i) := by
  have ranged (inRange : Cfg → Bool) {w : Word} {f : State → State} (hf : ChainBlind f) :
      ChainBlindOutcome (·.accept fun s => if inRange s.cfg then f s else s.raise .range w) :=
    accept (.ite (p := fun s => inRange s.cfg = true) (fun _ _ => rfl) hf (.raise _ _))
  cases i with
  | setbit idx v => exact ranged (bitInRange · idx) fun _ c => ⟨c, rfl⟩
  | setall v => exact accept fun _ c => ⟨c, rfl⟩
  | getbit idx => exact ranged (bitInRange · idx) fun _ c => ⟨c, rfl⟩
  | rdbyte reg => exact ranged (regInRange · reg) fun _ c => ⟨c, rfl⟩
  | commit => exact accept (.startSequence _)
  | setoe v =>
    intro s t c
    rw [exec_setoe, exec_setoe]
    exact accept (.ite (p := fun s => v = s.outputEnabled) (fun _ _ => rfl) (.respond _ _ _)
      (.ite (p := fun s => s.cfg.oeBound = true) (fun _ _ => rfl)
        (.ite (p := fun s => s.writeFails = true) (fun _ _ => rfl) (fun _ _ => ⟨_, rfl⟩) (fun _ _ => ⟨_, rfl⟩))
        (.respond _ _ _))) s t c
  | mreset =>
    exact accept (.ite (p := fun s => s.cfg.mrBound = true) (fun _ _ => rfl) (.startSequence _) (.respond _ _ _))
  | status => exact accept fun _ c => ⟨c, rfl⟩

theorem controllerStep : ChainBlindOutcome State.controllerStep := by
  intro s t c h
  obtain ⟨op, hop, rfl⟩ := State.microStep_of_controllerStep h
  obtain ⟨c', hc'⟩ := ChainBlind.microStep op s c
  exact ⟨c', (State.controllerStep_eq (s := s.withChain c) hop).trans (congrArg _ hc')⟩

theorem acceptWord (w : Word) : ChainBlindOutcome (acceptWord w) := by
  unfold Machine.acceptWord
  split
  · exact exec _
  · exact next (.raise _ _)

theorem run : ChainBlindOutcome State.run := by
  intro s t c h
  unfold State.run at h ⊢
  rw [show (s.withChain c).mode = s.mode from rfl, show (s.withChain c).presented = s.presented from rfl]
  split at h
  · exact controllerStep.comp .hostWaits s t c h
  · exact controllerStep.comp .hostWaits s t c h
  · split at h
    · exact (acceptWord _).comp .popHost s t c h
    · exact next .hostWaits s t c h
  · exact next .hostWaits s t c h

theorem cycle : ChainBlindOutcome State.cycle := by
  intro s t c h
  unfold State.cycle at h ⊢
  rw [show (s.withChain c).cfg = s.cfg from rfl, show (s.withChain c).host = s.host from rfl]
  split_ifs at h ⊢
  split at h
  · exact next (.comp (.assertRst _) .popHost) s t c h
  · exact run.comp .clearRsp s t c h

end ChainBlindOutcome

/-- Settles O56: no operation of the block reads the chips. -/
theorem blockNeverReadsChain : Obligations.BlockNeverReadsChain := ChainBlindOutcome.cycle

end Sys2Proof.Machine
end

section
/-! SUPPORT. Who changes what in one step: `outputEnabled` (10_state R26, 42_oe_mr_status R130), the bank (20_memory
R56) and the sticky flags (10_state R29). -/

namespace Sys2Proof.Machine

/-- A field that a command leaves alone is left alone by its acceptance. -/
theorem State.accept_keeps {α : Type} (field : State → α) {s t : State} {f : State → State}
    (hf : field (f s) = field s) (h : s.accept f = .next t) : field t = field s := by
  obtain ⟨-, ⟨-, rfl⟩ | ⟨-, rfl⟩⟩ := State.accept_cases h
  · exact hf
  · rfl

/-- No micro-operation touches the cached Output-Enable state or `PERR` (R112). -/
theorem State.microStep_frame (s : State) (op : MicroOp) :
    (s.microStep op).outputEnabled = s.outputEnabled ∧ (s.microStep op).perr = s.perr := by
  rcases s.microStep_cases op with h | ⟨-, h⟩ | h <;> rw [h]
  · exact ⟨rfl, rfl⟩
  · obtain ⟨-, -, -, hen, hperr, -⟩ := (s.miswritten op).abandon_frame
    exact ⟨hen, hperr⟩
  · obtain ⟨-, -, -, hen, hperr, -⟩ := (s.written op).advance_frame
    exact ⟨hen, hperr⟩

/-! `outputEnabled` (R26). -/

/-- The only command that changes `outputEnabled` is the SETOE of the new value on a bound line (R130). -/
theorem exec_outputEnabled {i : Instr} {s t : State} (h : exec i s = .next t) :
    t.outputEnabled = s.outputEnabled ∨ (s.cfg.oeBound = true ∧ i = .setoe t.outputEnabled) := by
  cases i with
  | setbit idx v => exact .inl (State.accept_keeps State.outputEnabled (by split_ifs <;> rfl) (exec_setbit idx v s ▸ h))
  | setall v => exact .inl (State.accept_keeps State.outputEnabled rfl (exec_setall v s ▸ h))
  | getbit idx => exact .inl (State.accept_keeps State.outputEnabled (by split_ifs <;> rfl) (exec_getbit idx s ▸ h))
  | rdbyte reg => exact .inl (State.accept_keeps State.outputEnabled (by split_ifs <;> rfl) (exec_rdbyte reg s ▸ h))
  | commit => exact .inl (State.accept_keeps State.outputEnabled rfl (exec_commit s ▸ h))
  | setoe v =>
    rw [exec_setoe] at h
    obtain ⟨-, ⟨-, rfl⟩ | ⟨-, rfl⟩⟩ := State.accept_cases h
    · split_ifs with _ hb
      · exact .inl rfl
      · exact .inl rfl
      · exact .inr ⟨hb, rfl⟩
      · exact .inl rfl
    · exact .inl rfl
  | mreset => exact .inl (State.accept_keeps State.outputEnabled (by split_ifs <;> rfl) (exec_mreset s ▸ h))
  | status => exact .inl (State.accept_keeps State.outputEnabled rfl (exec_status s ▸ h))

/-- Settles O37: of the ways a step can go, a reset and an executed SETOE can change `outputEnabled`. -/
theorem outputEnabledChangesOnlyBySetoe : Obligations.OutputEnabledChangesOnlyBySetoe := by
  intro s t h hne
  obtain ⟨-, ⟨avail, rest, hh, -⟩ | ⟨-, -, hctl⟩ | ⟨-, hm, w, rest, i, hp, hi, hexec⟩ |
    ⟨-, -, w, rest, e, -, -, rfl⟩ | ⟨-, -, rfl⟩⟩ := step_cases h
  · exact .inl (State.rstAsserted_eq_true.2 ⟨avail, rest, hh⟩)
  · obtain ⟨op, -, rfl⟩ := State.microStep_of_controllerStep hctl
    exact absurd (by simpa using (s.clearRsp.hostWaits.microStep_frame op).1) hne
  · obtain hsame | ⟨hb, rfl⟩ := exec_outputEnabled hexec
    · exact absurd hsame hne
    · exact .inr ⟨hm, hb, w, rest, hp, hi⟩
  · exact absurd rfl hne
  · exact absurd (by simp) hne

/-! The bank (R20, R56). -/

/-- The only commands that write the bank in their accepting step are SETBIT and SETALL (R56). -/
theorem exec_bits {i : Instr} {s t : State} (h : exec i s = .next t) :
    t.bits = s.bits ∨ (∃ idx v, i = .setbit idx v) ∨ ∃ v, i = .setall v := by
  cases i with
  | setbit idx v => exact .inr (.inl ⟨idx, v, rfl⟩)
  | setall v => exact .inr (.inr ⟨v, rfl⟩)
  | getbit idx => exact .inl (State.accept_keeps State.bits (by split_ifs <;> rfl) (exec_getbit idx s ▸ h))
  | rdbyte reg => exact .inl (State.accept_keeps State.bits (by split_ifs <;> rfl) (exec_rdbyte reg s ▸ h))
  | commit => exact .inl (State.accept_keeps State.bits rfl (exec_commit s ▸ h))
  | setoe v => exact .inl (State.accept_keeps State.bits (by split_ifs <;> rfl) (exec_setoe v s ▸ h))
  | mreset => exact .inl (State.accept_keeps State.bits (by split_ifs <;> rfl) (exec_mreset s ▸ h))
  | status => exact .inl (State.accept_keeps State.bits rfl (exec_status s ▸ h))

/-- A micro-operation without a zeroing leaves the bank. -/
theorem State.microStep_bits {s : State} {op : MicroOp} (hb : op.zeroesBefore = false) (ha : op.zeroesAfter = false) :
    (s.microStep op).bits = s.bits := by
  rcases s.microStep_cases op with h | ⟨-, h⟩ | h <;> rw [h]
  · rfl
  · obtain ⟨-, hbits, -⟩ := (s.miswritten op).abandon_frame
    simp [hbits, hb]
  · obtain ⟨-, hbits, -⟩ := (s.written op).advance_frame
    simp [hbits, hb, ha]

/-- The zeroing micro-operations: MRESET 0 and construction `c0` (R134, R191). -/
theorem State.microOp_zeroes {s : State} {op : MicroOp} (h : s.microOp = some op)
    (hz : op.zeroesBefore = true ∨ op.zeroesAfter = true) :
    (s.cur = .mreset ∧ s.upc = 0) ∨ (s.cur = .init ∧ s.upc = initPrefixLen s.cfg) := by
  have plain {n : Nat} {bank : Memory} {k : Nat} (hc : commitOp n bank k = some op) : False := by
    obtain ⟨-, hbefore, hafter, -⟩ := commitOp_plain hc
    simp [hbefore, hafter] at hz
  unfold State.microOp at h
  split at h
  · cases h
  · rename_i hcur
    obtain ⟨-, rfl⟩ | ⟨-, rfl⟩ | ⟨-, rfl⟩ | ⟨-, -, rfl⟩ | ⟨-, -, rfl⟩ | ⟨hk, -⟩ | ⟨-, hc⟩ := initOp_cases h
    case inr.inr.inr.inr.inr.inl => exact .inr ⟨hcur, hk⟩
    case inr.inr.inr.inr.inr.inr => exact (plain hc).elim
    all_goals simp [driveLow, driveHigh] at hz
  · exact (plain h).elim
  · rename_i hcur
    obtain ⟨-, ⟨hk, -⟩ | ⟨-, -, hc⟩ | ⟨-, rfl⟩⟩ := mresetOp_cases h
    · exact .inl ⟨hcur, hk⟩
    · exact (plain hc).elim
    · simp [driveHigh] at hz

/-- Settles O55: a reset, an executed SETBIT or SETALL, and a zeroing micro-operation can change the bank. -/
theorem bankWrittenOnlyBy : Obligations.BankWrittenOnlyBy := by
  intro s t h hne
  obtain ⟨-, ⟨avail, rest, hh, -⟩ | ⟨-, hm, hctl⟩ | ⟨-, hm, w, rest, i, hp, hi, hexec⟩ |
    ⟨-, -, w, rest, e, -, -, rfl⟩ | ⟨-, -, rfl⟩⟩ := step_cases h
  · exact .inl (State.rstAsserted_eq_true.2 ⟨avail, rest, hh⟩)
  · obtain ⟨op, hop, rfl⟩ := State.microStep_of_controllerStep hctl
    have hz : op.zeroesBefore = true ∨ op.zeroesAfter = true := by
      by_contra hno
      simp only [not_or, Bool.not_eq_true] at hno
      exact hne (by simpa using State.microStep_bits (s := s.clearRsp.hostWaits) hno.1 hno.2)
    exact .inr (.inr ⟨hm, by simpa using State.microOp_zeroes hop hz⟩)
  · exact .inr (.inl ⟨hm, w, rest, i, hp, hi, (exec_bits hexec).resolve_left hne⟩)
  · exact absurd rfl hne
  · exact absurd (by simp) hne

/-! The sticky flags (R29). -/

/-- The response on the port is `ERR_ILLEGAL` or `ERR_RANGE` (R29). -/
def State.ReportsError (s : State) : Prop := ∃ r, s.rsp = some r ∧ (r.code = .errIllegal ∨ r.code = .errRange)

/-- From `s` to `t` a failed write was appended to the trace (R176). -/
def AppendsFailure (s t : State) : Prop := ∃ x v, t.trace = s.trace ++ [.wf x v]

/-- From `s` to `t` each sticky flag is set with its error and kept without it (R29). -/
structure FlagsFollow (s t : State) : Prop where
  perr : (t.perr = s.perr ∧ ¬t.ReportsError) ∨ (t.perr = true ∧ t.ReportsError)
  pf : (t.pf = s.pf ∧ ¬AppendsFailure s t) ∨ (t.pf = true ∧ AppendsFailure s t)

theorem State.not_reportsError_of_none {s : State} (h : s.rsp = none) : ¬s.ReportsError := by
  rintro ⟨r, hr, -⟩
  rw [h] at hr
  cases hr

theorem State.reportsError_respond (s : State) (w : Word) (code : Code) (data : Word) :
    (s.respond w code data).ReportsError ↔ code = .errIllegal ∨ code = .errRange := by
  simp [State.ReportsError]

theorem not_appendsFailure_of_eq {s t : State} (h : t.trace = s.trace) : ¬AppendsFailure s t := by
  rintro ⟨x, v, hx⟩
  simp [h] at hx

theorem not_appendsFailure_of_write {s t : State} {x : Line} {v : Level} (h : t.trace = s.trace ++ [.w x v]) :
    ¬AppendsFailure s t := by
  rintro ⟨y, u, hy⟩
  simp [h] at hy

/-- A state that differs from `s` neither in the flags nor in the trace, with no error on the port. -/
theorem FlagsFollow.quiet {s t : State} (hperr : t.perr = s.perr) (hpf : t.pf = s.pf) (htr : t.trace = s.trace)
    (hr : ¬t.ReportsError) : FlagsFollow s t :=
  ⟨.inl ⟨hperr, hr⟩, .inl ⟨hpf, not_appendsFailure_of_eq htr⟩⟩

theorem FlagsFollow.respond {s u : State} (hperr : u.perr = s.perr) (hpf : u.pf = s.pf) (htr : u.trace = s.trace)
    (w : Word) {code : Code} (data : Word) (hcode : ¬(code = .errIllegal ∨ code = .errRange)) :
    FlagsFollow s (u.respond w code data) :=
  .quiet hperr hpf htr ((u.reportsError_respond w code data).not.2 hcode)

theorem FlagsFollow.setPerr_respond (s : State) (w : Word) {code : Code}
    (hcode : code = .errIllegal ∨ code = .errRange) : FlagsFollow s (s.setPerr.respond w code 0) :=
  ⟨.inr ⟨rfl, (s.setPerr.reportsError_respond w code 0).2 hcode⟩, .inl ⟨rfl, not_appendsFailure_of_eq rfl⟩⟩

/-- Every command sets the flags with their errors only, where no earlier answer is on the port. -/
theorem exec_flagsFollow {i : Instr} {s t : State} (hr : s.rsp = none) (h : exec i s = .next t) :
    FlagsFollow s t := by
  have accept {f : State → State} (hf : FlagsFollow s (f s)) (h : s.accept f = .next t) : FlagsFollow s t := by
    obtain ⟨-, ⟨-, rfl⟩ | ⟨-, rfl⟩⟩ := State.accept_cases h
    · exact hf
    · exact .quiet rfl rfl rfl (State.not_reportsError_of_none hr)
  have ok (w data : Word) : FlagsFollow s (s.respond w .ok data) :=
    .respond rfl rfl rfl w data (by decide)
  have okBits (bank : Memory) (w : Word) : FlagsFollow s ({ s with bits := bank }.respond w .ok 0) :=
    .respond (s := s) (u := { s with bits := bank }) (code := .ok) rfl rfl rfl w 0 (by decide)
  have unavail (w : Word) : FlagsFollow s (s.respond w .unavail 0) :=
    .respond rfl rfl rfl w 0 (by decide)
  have range (w : Word) : FlagsFollow s (s.raise .range w) := .setPerr_respond s w (.inr rfl)
  have start (c : Cur) : FlagsFollow s (s.startSequence c) :=
    .quiet rfl rfl rfl (State.not_reportsError_of_none (s := s.startSequence c) hr)
  cases i with
  | setbit idx v =>
    refine accept ?_ (exec_setbit idx v s ▸ h)
    split_ifs
    · exact okBits _ _
    · exact range _
  | setall v => exact accept (okBits _ _) (exec_setall v s ▸ h)
  | getbit idx =>
    refine accept ?_ (exec_getbit idx s ▸ h)
    split_ifs
    · exact ok _ _
    · exact range _
  | rdbyte reg =>
    refine accept ?_ (exec_rdbyte reg s ▸ h)
    split_ifs
    · exact ok _ _
    · exact range _
  | commit => exact accept (start _) (exec_commit s ▸ h)
  | setoe v =>
    refine accept ?_ (exec_setoe v s ▸ h)
    split_ifs
    · exact ok _ _
    · exact ⟨.inl ⟨rfl, (State.reportsError_respond _ _ _ _).not.2 (by decide)⟩, .inr ⟨rfl, _, _, rfl⟩⟩
    · exact ⟨.inl ⟨rfl, (State.reportsError_respond _ _ _ _).not.2 (by decide)⟩,
        .inl ⟨rfl, not_appendsFailure_of_write rfl⟩⟩
    · exact unavail _
  | mreset =>
    refine accept ?_ (exec_mreset s ▸ h)
    split_ifs
    · exact start _
    · exact unavail _
  | status => exact accept (ok _ _) (exec_status s ▸ h)

/-- The end of a sequence answers `OK` or nothing (R112). -/
theorem State.advance_not_reportsError {s : State} (h : s.rsp = none) : ¬s.advance.ReportsError := by
  rw [State.advance_eq]
  split_ifs
  · split
    · exact (s.reportsError_respond _ .ok 0).not.2 (by decide)
    · exact State.not_reportsError_of_none h
  · exact State.not_reportsError_of_none h

/-- An abandoned sequence answers `ERR_PIN` or nothing (R176). -/
theorem State.abandon_not_reportsError {s : State} (h : s.rsp = none) : ¬s.abandon.ReportsError := by
  unfold State.abandon
  split_ifs
  · exact State.not_reportsError_of_none h
  · split
    · exact (s.toIdle.reportsError_respond _ .errPin 0).not.2 (by decide)
    · exact State.not_reportsError_of_none h

/-- A micro-operation sets `PF` exactly with a failed write and leaves `PERR`. -/
theorem State.microStep_flagsFollow {s : State} (hr : s.rsp = none) (op : MicroOp) :
    FlagsFollow s (s.microStep op) := by
  obtain ⟨-, hperr⟩ := s.microStep_frame op
  rcases s.microStep_cases op with h | ⟨-, h⟩ | h <;> rw [h] at hperr ⊢
  · exact .quiet rfl rfl rfl (State.not_reportsError_of_none hr)
  · obtain ⟨-, -, -, -, -, hpf, -, htr, -⟩ := (s.miswritten op).abandon_frame
    exact ⟨.inl ⟨hperr, State.abandon_not_reportsError hr⟩, .inr ⟨hpf, _, _, htr⟩⟩
  · obtain ⟨-, -, -, -, -, hpf, -, htr, -⟩ := (s.written op).advance_frame
    exact ⟨.inl ⟨hperr, State.advance_not_reportsError hr⟩, .inl ⟨hpf, not_appendsFailure_of_write htr⟩⟩

/-- In a step without reset the flags follow their errors. -/
theorem step_flagsFollow {s t : State} (h : step s = .next t) (hr : s.rstAsserted = false) : FlagsFollow s t := by
  have hclear : s.clearRsp.hostWaits.rsp = none := State.hostWaits_rsp _
  have same : FlagsFollow s.clearRsp.hostWaits t → FlagsFollow s t := fun hf =>
    ⟨by simpa using hf.perr, by simpa [AppendsFailure] using hf.pf⟩
  obtain ⟨-, ⟨avail, rest, hh, -⟩ | ⟨-, -, hctl⟩ | ⟨-, -, w, rest, i, -, -, hexec⟩ |
    ⟨-, -, w, rest, e, -, -, rfl⟩ | ⟨-, -, rfl⟩⟩ := step_cases h
  · rw [State.rstAsserted_eq_true.2 ⟨avail, rest, hh⟩] at hr
    cases hr
  · obtain ⟨op, -, rfl⟩ := State.microStep_of_controllerStep hctl
    exact same (State.microStep_flagsFollow hclear op)
  · have hf := exec_flagsFollow (s := s.clearRsp.popHost) rfl hexec
    exact ⟨hf.perr, hf.pf⟩
  · have hf := FlagsFollow.setPerr_respond s.clearRsp.popHost w (.inl rfl)
    exact ⟨hf.perr, hf.pf⟩
  · exact same (.quiet rfl rfl rfl (State.not_reportsError_of_none hclear))

/-- Settles O47: what `FlagsFollow` says, read for a flag that is set and for one that is clear. -/
theorem stickyFlags : Obligations.StickyFlags := by
  intro s t h hr
  obtain ⟨hperr, hpf⟩ := step_flagsFollow h hr
  have sticky {flag flag' : Bool} {err : Prop} (hf : (flag' = flag ∧ ¬err) ∨ (flag' = true ∧ err)) :
      (flag = true → flag' = true) ∧ (flag = false → (flag' = true ↔ err)) := by
    rcases hf with ⟨rfl, hno⟩ | ⟨rfl, herr⟩
    · exact ⟨id, fun hfalse => by simp [hfalse, hno]⟩
    · exact ⟨fun _ => rfl, fun _ => by simp [herr]⟩
  exact ⟨(sticky hperr).1, (sticky hpf).1, (sticky hperr).2, (sticky hpf).2⟩

end Sys2Proof.Machine
end

section
/-! SUPPORT. The command port (10_state R27, R32, 70_reset R199) and the values after power-up (10_state R33). -/

namespace Sys2Proof.Machine

/-! Acceptance in `IDLE` and nowhere else. -/

theorem State.presents.host_eq {s : State} {w : Word} {rest : List HostMove} (h : s.presents w rest) :
    s.rstAsserted = false ∧ s.presented = some w ∧ s.host.tail = rest := by
  refine ⟨?_, State.presented_eq_some.2 ⟨rest, h⟩, ?_⟩ <;> rcases h with h | h <;> simp [State.rstAsserted, h]

/-- Settles O9: `run` in `IDLE` takes the word off the port, and `acceptWord` executes what it decodes to. -/
theorem stepRunsDecodedCommand : Obligations.StepRunsDecodedCommand := by
  intro s w i rest hc hm hp hi
  obtain ⟨hr, hpres, htail⟩ := hp.host_eq
  have haccept : acceptWord w s.clearRsp.popHost = exec i s.clearRsp.popHost := by
    unfold acceptWord
    rw [hi]
  rw [step_no_reset hc hr]
  have hrun : s.clearRsp.run = acceptWord w s.clearRsp.popHost := by
    unfold State.run
    rw [State.clearRsp_mode, hm, show s.clearRsp.presented = some w from hpres]
  rw [hrun, haccept, ← htail]
  rfl

/-- Settles O16: every command is one acceptance, and outside `IDLE` that answers the same state. -/
theorem noCommandAcceptedUnlessIdle : Obligations.NoCommandAcceptedUnlessIdle := by
  intro i s hc hm
  obtain ⟨run, hrun⟩ := exec_accept i
  rw [hrun, State.accept_not_idle run hc hm]

/-! Outside `IDLE` the host's moves are not read (R32, R199). -/

/-- The state with the host's moves `host` left. -/
def State.withHost (s : State) (host : List HostMove) : State := { s with host := host }

/-- The outcome with the host's moves `host` left. -/
def outcomeWithHost (host : List HostMove) :
    Host.Outcome State Fault Refusal → Host.Outcome State Fault Refusal
  | .next s => .next (s.withHost host)
  | .fault f => .fault f
  | .refused r => .refused r

section
variable (s : State) (host : List HostMove)

theorem State.advance_withHost : (s.withHost host).advance = s.advance.withHost host := by
  rw [State.advance_eq, State.advance_eq]
  show (if s.upc + 1 = s.seqLen then _ else _) = _
  split_ifs
  · rw [show (s.withHost host).cur = s.cur from rfl]
    split <;> rfl
  · rfl

theorem State.abandon_withHost : (s.withHost host).abandon = s.abandon.withHost host := by
  unfold State.abandon
  rw [show (s.withHost host).mode = s.mode from rfl, show (s.withHost host).cur = s.cur from rfl]
  split_ifs
  · rfl
  · split <;> rfl

theorem State.microStep_withHost (op : MicroOp) :
    (s.withHost host).microStep op = (s.microStep op).withHost host := by
  unfold State.microStep
  rw [show (s.withHost host).cfg = s.cfg from rfl, show (s.withHost host).writeFails = s.writeFails from rfl]
  split_ifs
  · rfl
  · exact State.abandon_withHost (s.miswritten op) host
  · exact State.advance_withHost (s.written op) host

theorem State.controllerStep_withHost :
    (s.withHost host).controllerStep = outcomeWithHost host s.controllerStep := by
  have hop : (s.withHost host).microOp = s.microOp := rfl
  cases h : s.microOp with
  | none =>
    unfold State.controllerStep
    rw [hop, h]
    rfl
  | some op =>
    rw [State.controllerStep_eq h, State.controllerStep_eq (hop.trans h), State.microStep_withHost]
    rfl

end

/-- What the block does outside `IDLE`: nothing in `FAILED`, one micro-operation otherwise (R27). -/
def State.work (s : State) : Host.Outcome State Fault Refusal :=
  if s.mode = .failed then .next s else s.controllerStep

theorem State.work_withHost (s : State) (host : List HostMove) :
    (s.withHost host).work = outcomeWithHost host s.work := by
  unfold State.work
  rw [show (s.withHost host).mode = s.mode from rfl]
  split_ifs
  · rfl
  · exact s.controllerStep_withHost host

theorem State.run_not_idle {s : State} (hm : s.mode ≠ .idle) :
    s.run = outcomeWithHost s.hostWaits.host s.work := by
  have hwaits : s.hostWaits = s.withHost s.hostWaits.host := s.hostWaits_eq
  rw [← State.work_withHost, ← hwaits]
  unfold State.run State.work
  rw [State.hostWaits_mode]
  cases hmode : s.mode with
  | idle => exact absurd hmode hm
  | init | busy | failed => rfl

theorem outcomeWithHost_idem (host host' : List HostMove) (o : Host.Outcome State Fault Refusal) :
    outcomeWithHost host (outcomeWithHost host' o) = outcomeWithHost host o := by
  cases o <;> rfl

/-- Outside `IDLE` the host's moves are not read: the step leaves the host what `hostWaits` leaves it (R32, R199). -/
theorem step_not_idle {s : State} {host : List HostMove} (hc : s.cfg.wf = true) (hm : s.mode ≠ .idle)
    (hr : (s.withHost host).rstAsserted = false) :
    step (s.withHost host) = outcomeWithHost (s.withHost host).clearRsp.hostWaits.host s.clearRsp.work := by
  rw [step_no_reset (s := s.withHost host) hc hr, State.run_not_idle (s := (s.withHost host).clearRsp) hm,
    show (s.withHost host).clearRsp = s.clearRsp.withHost host from rfl, State.work_withHost, outcomeWithHost_idem]

/-- Settles O11: a waiting host and one that presents a word leave the same moves; one that holds a word keeps it. -/
theorem commandIgnoredUnlessIdle : Obligations.CommandIgnoredUnlessIdle := by
  intro s w rest hm
  obtain ⟨hpresent, hissue⟩ :
      step (s.withHost (.present w :: rest)) = step (s.withHost (.wait :: rest)) ∧
        step (s.withHost (.issue w :: rest)) =
          outcomeWithHost (.issue w :: rest) (step (s.withHost (.wait :: rest))) := by
    by_cases hc : s.cfg.wf = true
    · have hwait : step (s.withHost (.wait :: rest)) = outcomeWithHost rest s.clearRsp.work :=
        step_not_idle hc hm rfl
      rw [hwait, outcomeWithHost_idem]
      exact ⟨step_not_idle hc hm rfl, step_not_idle hc hm rfl⟩
    · have refuses (host : List HostMove) : step (s.withHost host) = .refused .illFormedConfig :=
        step_illFormed (s := s.withHost host) (Bool.not_eq_true _ ▸ hc)
      simp only [refuses]
      exact ⟨trivial, rfl⟩
  exact ⟨hpresent, fun _ h => hissue.trans (congrArg _ h), fun _ h => hissue.trans (congrArg _ h),
    fun _ h => hissue.trans (congrArg _ h)⟩

/-- Settles O14: the fields of `State.powerUp`, for a wired and an unwired Output-Enable pin. -/
theorem powerUpValues : Obligations.PowerUpValues := by
  refine ⟨rfl, fun cfg => ⟨rfl, fun _ => rfl, fun x => by cases x <;> rfl, ?_, rfl, rfl, rfl, rfl, rfl⟩⟩
  show (!decide (0 < cfg.oePin)) = decide (cfg.oePin = 0)
  simp [Nat.pos_iff_ne_zero]

end Sys2Proof.Machine
end

section
/-! SUPPORT. The chips as the bank's commands see them (20_memory R52, R57, R59): the order in which CommitSeq sends
the bank, and the one micro-operation of each sequence that changes the storage stage. -/

namespace Sys2Proof.Machine

/-! The wire order (R52, R111). -/

/-- The first `3*m + 1` micro-operations of CommitSeq: `STCP` Low, then `m` groups of three, one for each bit sent. -/
theorem commitOp_groups (n : Nat) (bank : Memory) {m : Nat} (hm : m ≤ 8 * n) :
    ((List.range (3 * m + 1)).filterMap fun k => (commitOp n bank k).map MicroOp.event) =
      .w .stcp .l :: (List.range m).flatMap fun g => bitWrites (bank.bitRead (8 * n - 1 - g)) := by
  induction m with
  | zero => rfl
  | succ m ih =>
    have hm' : m < 8 * n := hm
    have hgroup : [3 * m + 1, 3 * m + 2, 3 * m + 3].filterMap (fun k => (commitOp n bank k).map MicroOp.event) =
        bitWrites (bank.bitRead (8 * n - 1 - m)) := by
      simp only [List.filterMap_cons, commitOp_clockLow bank hm', commitOp_data bank hm', commitOp_clockHigh bank hm']
      rfl
    have hrange : List.range (3 * (m + 1) + 1) = List.range (3 * m + 1) ++ [3 * m + 1, 3 * m + 2, 3 * m + 3] := by
      rw [show 3 * (m + 1) + 1 = 3 * m + 1 + 1 + 1 + 1 from by ring]
      simp only [List.range_succ, List.append_assoc, List.cons_append, List.nil_append]
    rw [hrange, List.filterMap_append, ih hm'.le, hgroup, List.range_succ, List.flatMap_append, List.flatMap_singleton,
      List.cons_append]

/-- The writes of CommitSeq: `STCP` Low, the groups of the bits in the order sent, `STCP` High (R111). -/
theorem commitEvents_eq (n : Nat) (bank : Memory) :
    commitEvents n bank =
      .w .stcp .l :: ((List.range (8 * n)).flatMap fun g => bitWrites (bank.bitRead (8 * n - 1 - g))) ++
        [.w .stcp .h] := by
  have hlast : [24 * n + 1].filterMap (fun k => (commitOp n bank k).map MicroOp.event) = [.w .stcp .h] := by
    rw [List.filterMap_cons, commitOp_last]
    rfl
  have hgroups := commitOp_groups n bank (le_refl (8 * n))
  rw [show 3 * (8 * n) + 1 = 24 * n + 1 from by ring] at hgroups
  unfold commitEvents
  rw [List.range_succ, List.filterMap_append, hgroups, hlast]

/-- A group has one Data write, that of its bit. -/
theorem bitWrites_filter_data (d : Bool) :
    (bitWrites d).filter (fun e => decide (e = .w .ds .l) || decide (e = .w .ds .h)) = [.w .ds (Level.ofBool d)] := by
  cases d <;> rfl

/-- Settles O27: each group contributes the Data write of its bit, and group `g` sends bit `8*N - 1 - g`. -/
theorem wireOrderDescending : Obligations.WireOrderDescending := by
  intro n bank
  have hreverse : (List.range (8 * n)).reverse = (List.range (8 * n)).map fun g => 8 * n - 1 - g := by
    simp [List.range_eq_range', List.reverse_range']
  rw [commitEvents_eq, hreverse, List.map_map, List.map_eq_flatMap, List.filter_append,
    List.filter_cons_of_neg (by decide), List.filter_flatMap]
  simp only [bitWrites_filter_data]
  exact List.append_nil _

/-! The storage stage (R57, R59). -/

/-- A write of one line, succeeded or failed, leaves the storage stage; or it is a write of `STCP` High and the
storage stage takes the shift stage (R156, R176). -/
theorem Chain.react_storage (cfg : Cfg) (ln : Lines) {x : Line} {v : Level} {high : Bool} (c : Chain)
    (hv : v = Level.ofBool high ∨ v = ln.get x) :
    (c.react cfg ln (ln.set x v) x).q = c.q ∨
      ((c.react cfg ln (ln.set x v) x).q = c.sh ∧ x = .stcp ∧ high = true) := by
  unfold Chain.react
  cases x with
  | ds | oe => exact .inl rfl
  | mr | shcp => dsimp only; split_ifs <;> exact .inl rfl
  | stcp =>
    dsimp only
    split_ifs with hrise
    · obtain ⟨hbefore, hafter⟩ := hrise
      refine .inr ⟨rfl, rfl, ?_⟩
      rcases hv with rfl | rfl
      · cases high
        · cases hafter
        · rfl
      · exact absurd (hbefore.symm.trans hafter) (by decide)
    · exact .inl rfl

/-- A micro-operation leaves the storage stage; or it drives `STCP` High and the storage stage takes the shift
stage. -/
theorem State.microStep_storage (s : State) (op : MicroOp) :
    (s.microStep op).chain.q = s.chain.q ∨
      ((s.microStep op).chain.q = s.chain.sh ∧ op.line = .stcp ∧ op.high = true) := by
  rcases s.microStep_cases op with h | ⟨-, h⟩ | h <;> rw [h]
  · exact .inl rfl
  · obtain ⟨-, -, -, -, -, -, hchain, -⟩ := (s.miswritten op).abandon_frame
    rw [hchain, State.miswritten_chain]
    exact Chain.react_storage s.cfg s.lines s.chain (s.drawnLevel_cases op.line _)
  · obtain ⟨-, -, -, -, -, -, hchain, -⟩ := (s.written op).advance_frame
    rw [hchain, State.written_chain]
    exact Chain.react_storage s.cfg s.lines s.chain (.inl rfl)

/-- CommitSeq drives `STCP` High only at its last position (R111). -/
theorem commitOp_latches {n : Nat} {bank : Memory} {k : Nat} {op : MicroOp} (h : commitOp n bank k = some op)
    (hline : op.line = .stcp) (hhigh : op.high = true) : k = 24 * n + 1 := by
  obtain ⟨-, rfl⟩ | ⟨-, -, rfl | ⟨b, rfl⟩ | rfl⟩ | ⟨hk, -⟩ := commitOp_cases h
  · cases hhigh
  iterate 3 · cases hline
  · exact hk

/-- The one position of each sequence that drives `STCP` High (R111, R134, R191). -/
theorem State.microOp_latches {s : State} {op : MicroOp} (h : s.microOp = some op) (hline : op.line = .stcp)
    (hhigh : op.high = true) :
    (s.cur = .commit ∧ s.upc = 24 * s.cfg.n + 1) ∨ (s.cur = .mreset ∧ s.upc = 24 * s.cfg.n + 2) ∨
      (s.cur = .init ∧ s.upc + 1 = initLen s.cfg) := by
  unfold State.microOp at h
  split at h
  · cases h
  · rename_i hcur
    obtain ⟨-, rfl⟩ | ⟨-, rfl⟩ | ⟨-, rfl⟩ | ⟨-, -, rfl⟩ | ⟨-, -, rfl⟩ | ⟨-, rfl⟩ | ⟨hlt, hc⟩ := initOp_cases h
    case inr.inr.inr.inr.inr.inr =>
      have hpos := commitOp_latches hc hline hhigh
      refine .inr (.inr ⟨hcur, ?_⟩)
      unfold initLen
      omega
    all_goals simp [driveLow, driveHigh] at hline hhigh
  · exact .inl ⟨‹_›, commitOp_latches h hline hhigh⟩
  · rename_i hcur
    obtain ⟨-, ⟨-, rfl⟩ | ⟨hpos, -, hc⟩ | ⟨-, rfl⟩⟩ := mresetOp_cases h
    · cases hhigh
    · have := commitOp_latches hc hline hhigh
      exact .inr (.inl ⟨hcur, by omega⟩)
    · cases hline

/-- No command changes the storage stage in its accepting step: SETOE drives `OE`, the others no line (R155). -/
theorem exec_storage {i : Instr} {s t : State} (h : exec i s = .next t) : t.chain.q = s.chain.q := by
  cases i with
  | setbit idx v => exact State.accept_keeps (·.chain.q) (by split_ifs <;> rfl) (exec_setbit idx v s ▸ h)
  | setall v => exact State.accept_keeps (·.chain.q) rfl (exec_setall v s ▸ h)
  | getbit idx => exact State.accept_keeps (·.chain.q) (by split_ifs <;> rfl) (exec_getbit idx s ▸ h)
  | rdbyte reg => exact State.accept_keeps (·.chain.q) (by split_ifs <;> rfl) (exec_rdbyte reg s ▸ h)
  | commit => exact State.accept_keeps (·.chain.q) rfl (exec_commit s ▸ h)
  | setoe v => exact State.accept_keeps (·.chain.q) (by split_ifs <;> rfl) (exec_setoe v s ▸ h)
  | mreset => exact State.accept_keeps (·.chain.q) (by split_ifs <;> rfl) (exec_mreset s ▸ h)
  | status => exact State.accept_keeps (·.chain.q) rfl (exec_status s ▸ h)

/-- Settles O32: of the ways a step can go, only a micro-operation that drives `STCP` High can latch. -/
theorem outputsChangeOnlyAtFinalLatch : Obligations.OutputsChangeOnlyAtFinalLatch := by
  intro s t h
  obtain ⟨-, ⟨avail, rest, -, rfl⟩ | ⟨hr, hm, hctl⟩ | ⟨-, -, w, rest, i, -, -, hexec⟩ |
    ⟨-, -, w, rest, e, -, -, rfl⟩ | ⟨-, -, rfl⟩⟩ := step_cases h
  · exact .inl rfl
  · obtain ⟨op, hop, rfl⟩ := State.microStep_of_controllerStep hctl
    obtain hkeep | ⟨hlatch, hline, hhigh⟩ := s.clearRsp.hostWaits.microStep_storage op
    · exact .inl (by simpa using hkeep)
    · exact .inr ⟨by simpa using hlatch, hr, hm, by simpa using State.microOp_latches hop hline hhigh⟩
  · exact .inl (exec_storage (s := s.clearRsp.popHost) hexec)
  · exact .inl rfl
  · exact .inl (by simp)

end Sys2Proof.Machine
end

section
/-! SUPPORT. The command words (30_encoding): words by their fields (R71), the rows of the opcode map as encodings
(R73), and from these what the decoder answers (R74, R75, R80). -/

namespace Sys2Proof

/-! Words by their fields (R71). -/

theorem fieldArg_lt (w : Word) : fieldArg w < 2048 := BitVec.isLt _

theorem fieldArg_eq_and (w : Word) : fieldArg w = (w &&& 0x07FF).toNat := by
  have hmask := Nat.and_two_pow_sub_one_eq_mod w.toNat 11
  simpa [fieldArg] using hmask.symm

theorem fieldOp_and (w w' : Word) : fieldOp (w &&& w') = fieldOp w &&& fieldOp w' := BitVec.extractLsb'_and

theorem fieldV_and (w w' : Word) : fieldV (w &&& w') = (fieldV w && fieldV w') := BitVec.getLsbD_and

theorem fieldArg_and (w w' : Word) : fieldArg (w &&& w') = fieldArg w &&& fieldArg w' := by
  unfold fieldArg
  rw [BitVec.extractLsb'_and, BitVec.toNat_and]

/-- Two words are the same when their three fields are. -/
theorem word_eq_iff_fields {w w' : Word} :
    w = w' ↔ fieldOp w = fieldOp w' ∧ fieldV w = fieldV w' ∧ fieldArg w = fieldArg w' := by
  refine ⟨fun h => by simp [h], fun ⟨hop, hv, harg⟩ => ?_⟩
  rw [← packWord_fields w, hop, hv, harg, packWord_fields]

/-- A mask of the opcode map looks at the opcode and at the reserved fields: a word matches under it exactly when the
packing of its opcode with the fields that are operands gives the word back (R73, R74). -/
theorem and_mask_eq_iff (w : Word) (op : BitVec 4) (hasV hasArg : Bool) :
    w &&& packWord 0xF (!hasV) (if hasArg then 0 else 2047) = packWord op false 0 ↔
      packWord op (hasV && fieldV w) (if hasArg then fieldArg w else 0) = w := by
  have hop : fieldOp w &&& 0xF = fieldOp w := BitVec.and_allOnes
  have harg : fieldArg w % 2048 = fieldArg w := Nat.mod_eq_of_lt (fieldArg_lt w)
  have hall : fieldArg w &&& 2047 = fieldArg w := by
    rw [← harg]
    exact Nat.and_two_pow_sub_one_of_lt_two_pow (n := 11) (Nat.mod_lt _ (by decide))
  rw [word_eq_iff_fields, eq_comm (b := w), word_eq_iff_fields (w := w)]
  simp only [fieldOp_and, fieldV_and, fieldArg_and, fieldOp_packWord, fieldV_packWord, fieldArg_packWord, hop]
  cases hasV <;> cases hasArg <;> simp [harg, hall]

/-! The rows of the opcode map (R73). -/

/-- A row is selected by exactly the words that are the encoding of the command it builds from their fields. -/
theorem selects_iff_encode_build {r : OpRow} (hr : r ∈ opcodeRows) (w : Word) :
    r.selects w = true ↔ encode (r.build (fieldV w) (fieldArg w)) = w := by
  unfold OpRow.selects
  rw [beq_iff_eq]
  revert r
  simp only [opcodeRows, List.forall_mem_cons]
  exact ⟨and_mask_eq_iff w 0x1 true true, and_mask_eq_iff w 0x2 true false, and_mask_eq_iff w 0x3 false true,
    and_mask_eq_iff w 0x4 false true, and_mask_eq_iff w 0x5 false false, and_mask_eq_iff w 0x6 true false,
    and_mask_eq_iff w 0x7 false false, and_mask_eq_iff w 0x8 false false, nofun⟩

theorem build_wellFormed {r : OpRow} (hr : r ∈ opcodeRows) (w : Word) :
    (r.build (fieldV w) (fieldArg w)).WellFormed = true := by
  have hfits : argFits (fieldArg w) = true := decide_eq_true (fieldArg_lt w)
  revert r
  simp only [opcodeRows, List.forall_mem_cons]
  exact ⟨hfits, rfl, hfits, hfits, rfl, rfl, rfl, rfl, nofun⟩

/-- Every command is built from its operands by a row. -/
theorem exists_row_build (i : Instr) : ∃ r ∈ opcodeRows, r.build i.vOperand i.argOperand = i := by
  cases i <;> simp [opcodeRows, Instr.vOperand, Instr.argOperand]

/-- At most one row selects a word: every mask covers the opcode, and the rows' opcodes differ. -/
theorem selects_unique {r r' : OpRow} {w : Word} (hr : r ∈ opcodeRows) (hr' : r' ∈ opcodeRows)
    (h : r.selects w = true) (h' : r'.selects w = true) : r = r' := by
  have hnodup : (opcodeRows.map fun r => fieldOp r.matchBits).Nodup := by decide
  have hmask : ∀ r ∈ opcodeRows, fieldOp r.mask = 0xF := by decide
  have hop {r : OpRow} (hr : r ∈ opcodeRows) (h : r.selects w = true) : fieldOp r.matchBits = fieldOp w := by
    rw [← eq_of_beq h, fieldOp_and, hmask r hr]
    exact BitVec.and_allOnes
  exact List.inj_on_of_nodup_map hnodup hr hr' ((hop hr h).trans (hop hr' h').symm)

/-! The decoder (R73, R80). -/

theorem decodeWord_eq_ok_iff {w : Word} {i : Instr} :
    decodeWord w = .ok i ↔ ∃ r ∈ opcodeRows, r.selects w = true ∧ i = r.build (fieldV w) (fieldArg w) := by
  unfold decodeWord
  split
  · rename_i r hfind
    have hr := List.mem_of_find?_eq_some hfind
    have hsel : r.selects w = true := by simpa using List.find?_some hfind
    constructor
    · rintro ⟨⟩
      exact ⟨r, hr, hsel, rfl⟩
    · rintro ⟨r', hr', hsel', rfl⟩
      rw [selects_unique hr hr' hsel hsel']
  · rename_i hfind
    have hnone := List.find?_eq_none.1 hfind
    constructor
    · split_ifs <;> rintro ⟨⟩
    · rintro ⟨r, hr, hsel, -⟩
      exact absurd hsel (hnone r hr)

/-- A word that is no command is rejected, with a reason its opcode alone determines (R74, R75). -/
theorem decodeWord_eq_error {w : Word} (h : ∀ i, decodeWord w ≠ .ok i) :
    decodeWord w = .error
      (if opAssigned (fieldOp w) then .reservedField (fieldOp w) else .unassignedOpcode (fieldOp w)) := by
  unfold decodeWord at h ⊢
  split at h
  · exact absurd rfl (h _)
  · split_ifs <;> rfl

theorem decodeWord_isError_iff {w : Word} :
    (∃ e, decodeWord w = .error e) ↔ ∀ r ∈ opcodeRows, r.selects w = false := by
  constructor
  · rintro ⟨e, he⟩ r hr
    by_contra hsel
    have hok := decodeWord_eq_ok_iff.2 ⟨r, hr, by simpa using hsel, rfl⟩
    rw [he] at hok
    cases hok
  · intro hnone
    refine ⟨_, decodeWord_eq_error fun i hi => ?_⟩
    obtain ⟨r, hr, hsel, -⟩ := decodeWord_eq_ok_iff.1 hi
    rw [hnone r hr] at hsel
    cases hsel

/-- The encoded word of any command holds its opcode and operands (R71). -/
theorem encodedFields (i : Instr) : Laws.EncodedFields.Statement i := by
  cases i with
  | setbit idx v => exact Laws.EncodedFields.setbit idx v
  | setall v => exact Laws.EncodedFields.setall v
  | getbit idx => exact Laws.EncodedFields.getbit idx
  | rdbyte reg => exact Laws.EncodedFields.rdbyte reg
  | commit => exact Laws.EncodedFields.commit
  | setoe v => exact Laws.EncodedFields.setoe v
  | mreset => exact Laws.EncodedFields.mreset
  | status => exact Laws.EncodedFields.status

/-- Settles O1: the row of the command selects its word, and builds the command from the word's fields. -/
theorem decodeEncodeRoundTrip : Obligations.DecodeEncodeRoundTrip := by
  intro i hwf
  obtain ⟨-, hv, harg⟩ := encodedFields i
  obtain ⟨r, hr, hbuild⟩ := exists_row_build i
  have hbuild : r.build (fieldV (encode i)) (fieldArg (encode i)) = i := by rw [hv, harg hwf, hbuild]
  have hsel : r.selects (encode i) = true := (selects_iff_encode_build hr _).2 (by rw [hbuild])
  exact decodeWord_eq_ok_iff.2 ⟨r, hr, hsel, hbuild.symm⟩

/-- Settles O2: the row that a word selects builds a command whose encoding is the word. -/
theorem encodeDecodeRoundTrip : Obligations.EncodeDecodeRoundTrip := by
  intro w i h
  obtain ⟨r, hr, hsel, rfl⟩ := decodeWord_eq_ok_iff.1 h
  exact ⟨build_wellFormed hr w, (selects_iff_encode_build hr w).1 hsel⟩

/-- Settles O4: the rows of the map written out, with the operands as the word's fields. -/
theorem opcodeMap : Obligations.OpcodeMap := by
  intro w
  rw [decodeWord_isError_iff]
  refine ⟨fun idx v => ?_, ?_⟩
  · simp [decodeWord_eq_ok_iff, opcodeRows, OpRow.selects, fieldV, fieldArg_eq_and, and_comm (b := idx = _)]
  · simp [decodeWord_eq_ok_iff, opcodeRows, OpRow.selects, fieldV, fieldArg_eq_and]

/-- The fields of a word that decodes are the opcode and the operands of its command (R73). -/
theorem fields_of_decodeWord {w : Word} {i : Instr} (h : decodeWord w = .ok i) :
    fieldOp w = i.opcode ∧ fieldV w = i.vOperand ∧ fieldArg w = i.argOperand := by
  obtain ⟨hwf, rfl⟩ := encodeDecodeRoundTrip w i h
  obtain ⟨hop, hv, harg⟩ := encodedFields i
  exact ⟨hop, hv, harg hwf⟩

/-- Settles O5: no command of these opcodes has an operand in its reserved fields. -/
theorem reservedFieldsRejected : Obligations.ReservedFieldsRejected := by
  intro w h
  have hno (i : Instr) : decodeWord w ≠ .ok i := fun hi => by
    obtain ⟨hop, hv, harg⟩ := fields_of_decodeWord hi
    rw [hop, hv, harg] at h
    cases i <;> simp [Instr.opcode, Instr.vOperand, Instr.argOperand] at h
  have hassigned : opAssigned (fieldOp w) = true := by
    obtain ⟨hop | hop, -⟩ | ⟨hop | hop, -⟩ | ⟨hop | hop | hop, -⟩ := h <;> rw [hop] <;> rfl
  rw [decodeWord_eq_error hno, if_pos hassigned]

theorem opAssigned_opcode (i : Instr) : opAssigned i.opcode = true := by cases i <;> rfl

/-- Settles O6: every command has an assigned opcode. -/
theorem unassignedOpcodesRejected : Obligations.UnassignedOpcodesRejected := by
  intro w h
  have hunassigned : opAssigned (fieldOp w) = false := by
    rcases h with h | h
    · rw [h]
      rfl
    · simp only [opAssigned, Bool.and_eq_false_iff, decide_eq_false_iff_not]
      omega
  have hno (i : Instr) : decodeWord w ≠ .ok i := fun hi => by
    rw [(fields_of_decodeWord hi).1, opAssigned_opcode] at hunassigned
    cases hunassigned
  rw [decodeWord_eq_error hno, hunassigned]
  rfl

/-- The packing of fields written with shifts and ors, for an index that fits its field (R71, R9). -/
theorem packWord_eq_or (op : BitVec 4) (v : Bool) {arg : Nat} (harg : arg < 2048) :
    packWord op v arg =
      (op.setWidth 16 <<< 12) ||| ((BitVec.ofBool v).setWidth 16 <<< 11) ||| BitVec.ofNat 16 arg := by
  have hop := op.isLt
  have hv := v.toNat_lt
  have hor : op.toNat <<< 12 + (v.toNat <<< 11 + arg) = op.toNat <<< 12 ||| v.toNat <<< 11 ||| arg := by
    rw [Nat.shiftLeft_add_eq_or_of_lt, Nat.shiftLeft_add_eq_or_of_lt harg, Nat.or_assoc]
    omega
  apply BitVec.eq_of_toNat_eq
  simpa (disch := omega) [packWord, Nat.mod_eq_of_lt, Nat.shiftLeft_eq, Nat.add_assoc] using hor

theorem argOperand_lt {i : Instr} (hwf : i.WellFormed = true) : i.argOperand < 2048 := by
  obtain ⟨-, -, harg⟩ := encodedFields i
  exact harg hwf ▸ fieldArg_lt _

/-- Settles O3: a well-formed command's word packs its opcode and operands, and they fit their fields. -/
theorem encodeIsFormatC : Obligations.EncodeIsFormatC := fun i hwf =>
  packWord_eq_or i.opcode i.vOperand (argOperand_lt hwf)

/-- Settles O7: SETPIN and CLRPIN are SETBIT of a constant, whose word is format C. -/
theorem pseudoInstructionWords : Obligations.PseudoInstructionWords :=
  ⟨rfl, rfl, rfl, rfl, fun _ hidx => ⟨packWord_eq_or 0x1 true hidx, packWord_eq_or 0x1 false hidx⟩⟩

/-- Settles O8: the decoder evaluated on the words of R77 and 95_test_vectors 2.1. -/
theorem specWordsDecode : Obligations.SpecWordsDecode :=
  ⟨rfl, rfl, rfl, rfl, rfl, rfl, rfl, rfl, rfl, rfl, rfl, rfl, rfl⟩

end Sys2Proof
end

section
/-! SUPPORT. The response port (30_encoding R76, 10_state R32): what one step presents on it and logs. -/

namespace Sys2Proof.Machine

/-- From `s` to `t` no response was presented, or exactly one that was logged, without data unless it is `OK` (R76). -/
def AnswersAtMostOnce (s t : State) : Prop :=
  (t.rsp = none ∧ t.responses = s.responses) ∨
    ∃ r, t.rsp = some r ∧ t.responses = s.responses ++ [r] ∧ (r.code ≠ .ok → r.data = 0)

section
variable {s u : State} (hlog : u.responses = s.responses)
include hlog

theorem AnswersAtMostOnce.silent (hrsp : u.rsp = none) : AnswersAtMostOnce s u := .inl ⟨hrsp, hlog⟩

theorem AnswersAtMostOnce.ok (w data : Word) : AnswersAtMostOnce s (u.respond w .ok data) :=
  .inr ⟨_, rfl, by rw [State.respond_responses, hlog], fun hne => absurd rfl hne⟩

theorem AnswersAtMostOnce.noData (w : Word) (code : Code) : AnswersAtMostOnce s (u.respond w code 0) :=
  .inr ⟨_, rfl, by rw [State.respond_responses, hlog], fun _ => rfl⟩

/-- The end of a sequence answers `OK` without data, or nothing (R112). -/
theorem AnswersAtMostOnce.advance (hrsp : u.rsp = none) : AnswersAtMostOnce s u.advance := by
  rw [State.advance_eq]
  split_ifs
  · split
    · exact .ok hlog _ 0
    · exact .silent hlog hrsp
  · exact .silent hlog hrsp

/-- An abandoned sequence answers `ERR_PIN` without data, or nothing (R176). -/
theorem AnswersAtMostOnce.abandon (hrsp : u.rsp = none) : AnswersAtMostOnce s u.abandon := by
  unfold State.abandon
  split_ifs
  · exact .silent hlog hrsp
  · split
    · exact .noData (u := u.toIdle) hlog _ .errPin
    · exact .silent hlog hrsp

end

theorem State.microStep_answersAtMostOnce {s : State} (hrsp : s.rsp = none) (op : MicroOp) :
    AnswersAtMostOnce s (s.microStep op) := by
  rcases s.microStep_cases op with h | ⟨-, h⟩ | h <;> rw [h]
  · exact .silent rfl hrsp
  · exact .abandon rfl hrsp
  · exact .advance rfl hrsp

/-- A command is answered in its accepting step, or starts a sequence and is not answered yet (R27, R112). -/
theorem exec_answersAtMostOnce {i : Instr} {s t : State} (hrsp : s.rsp = none) (h : exec i s = .next t) :
    AnswersAtMostOnce s t := by
  have accept {f : State → State} (hf : AnswersAtMostOnce s (f s)) (h : s.accept f = .next t) :
      AnswersAtMostOnce s t := by
    obtain ⟨-, ⟨-, rfl⟩ | ⟨-, rfl⟩⟩ := State.accept_cases h
    · exact hf
    · exact .silent rfl hrsp
  have range (w : Word) : AnswersAtMostOnce s (s.raise .range w) := .noData (u := s.setPerr) rfl w .errRange
  cases i with
  | setbit idx v =>
    refine accept ?_ (exec_setbit idx v s ▸ h)
    split_ifs
    · exact .ok rfl _ 0
    · exact range _
  | setall v => exact accept (.ok rfl _ 0) (exec_setall v s ▸ h)
  | getbit idx =>
    refine accept ?_ (exec_getbit idx s ▸ h)
    split_ifs
    · exact .ok rfl _ _
    · exact range _
  | rdbyte reg =>
    refine accept ?_ (exec_rdbyte reg s ▸ h)
    split_ifs
    · exact .ok rfl _ _
    · exact range _
  | commit => exact accept (.silent rfl hrsp) (exec_commit s ▸ h)
  | setoe v =>
    refine accept ?_ (exec_setoe v s ▸ h)
    split_ifs
    · exact .ok rfl _ 0
    · exact .noData (u := (s.askedOracle.driveFails .oe (!v)).toIdle) rfl _ .errPin
    · exact .ok rfl _ 0
    · exact .noData rfl _ .unavail
  | mreset =>
    refine accept ?_ (exec_mreset s ▸ h)
    split_ifs
    · exact .silent rfl hrsp
    · exact .noData rfl _ .unavail
  | status => exact accept (.ok rfl _ _) (exec_status s ▸ h)

/-- Settles O48: each of the ways a step without reset can go, from a state whose port has been cleared. -/
theorem oneResponsePerStep : Obligations.OneResponsePerStep := by
  intro s t h hr
  have hwaits : s.clearRsp.hostWaits.responses = s.responses := State.hostWaits_responses _
  have hclear : s.clearRsp.hostWaits.rsp = none := State.hostWaits_rsp _
  show AnswersAtMostOnce s t
  obtain ⟨-, ⟨avail, rest, hh, -⟩ | ⟨-, -, hctl⟩ | ⟨-, -, w, rest, i, -, -, hexec⟩ |
    ⟨-, -, w, rest, e, -, -, rfl⟩ | ⟨-, -, rfl⟩⟩ := step_cases h
  · rw [State.rstAsserted_eq_true.2 ⟨avail, rest, hh⟩] at hr
    cases hr
  · obtain ⟨op, -, rfl⟩ := State.microStep_of_controllerStep hctl
    simpa only [AnswersAtMostOnce, hwaits] using State.microStep_answersAtMostOnce hclear op
  · exact exec_answersAtMostOnce (s := s.clearRsp.popHost) rfl hexec
  · exact .noData (u := s.clearRsp.popHost.setPerr) rfl w .errIllegal
  · exact .silent hwaits hclear

end Sys2Proof.Machine
end

section
/-! SUPPORT. The operations of the document on this block (30_encoding R79): a construction run to `cmd_ready`
(70_reset R191), and the operations that are commands. -/

namespace Sys2Proof.Machine

/-! Line writes none of which fails (R176). -/

theorem State.writesSucceed.writeFails {s : State} {k : Nat} (h : s.writesSucceed (k + 1)) : s.writeFails = false := by
  unfold State.writeFails
  cases hp : s.cfg.pinFault with
  | false => rfl
  | true =>
    cases hl : s.pinErr with
    | nil => rfl
    | cons b answers => exact h hp b (by simp [hl])

/-- One write later the oracle has one answer less to give. -/
theorem State.writesSucceed.tail {s : State} {k : Nat} (h : s.writesSucceed (k + 1)) :
    s.askedOracle.writesSucceed k := by
  intro hp b hb
  rw [State.askedOracle_pinErr, if_pos (show s.cfg.pinFault = true from hp)] at hb
  refine h hp b ?_
  cases hl : s.pinErr with
  | nil => simp [hl] at hb
  | cons c answers =>
    rw [hl] at hb
    exact List.mem_cons_of_mem c hb

@[simp] theorem State.written_host (s : State) (op : MicroOp) : (s.written op).host = s.host := rfl
@[simp] theorem State.written_pinErr (s : State) (op : MicroOp) : (s.written op).pinErr = s.askedOracle.pinErr := rfl

/-! A run of construction with a waiting host (R191). -/

/-- A step of a running sequence whose test passes and whose write succeeds (R112). -/
theorem step_written {s : State} {op : MicroOp} (hc : s.cfg.wf = true) (hr : s.rstAsserted = false)
    (hm : s.mode = .init ∨ s.mode = .busy) (hop : s.microOp = some op)
    (htest : op.testsCtrl = true → s.cfg.ctrlAvail = true) (hw : s.writeFails = false) :
    step s = .next (s.clearRsp.hostWaits.written op).advance := by
  have hop' : s.clearRsp.hostWaits.microOp = some op := by
    simpa [State.microOp] using hop
  have hw' : s.clearRsp.hostWaits.writeFails = false := by
    simpa [State.writeFails] using hw
  rw [step_controller hc hr hm, State.controllerStep_succeeds hop' (by simpa using htest) hw',
    State.after_driveSucceeds_before]

theorem run_succ {s t : State} (h : step s = .next t) (k : Nat) :
    Host.Core.run core (k + 1) s = Host.Core.run core k t := by
  have hcore : core.step s = .next t := h
  simp only [Host.Core.run, hcore]

/-- In construction with `k` micro-operations to go: none of the writes fails, and the host waits as long. -/
structure State.Constructing (cfg : Cfg) (k : Nat) (s : State) : Prop where
  cfg_eq : s.cfg = cfg
  mode : s.mode = .init
  cur : s.cur = .init
  position : s.upc + k = initLen cfg
  host : s.host = List.replicate k .wait
  writes : s.writesSucceed k
  responses : s.responses = []

/-- Construction has ended, the host's moves with it, and no command has been answered. -/
structure State.Constructed (cfg : Cfg) (s : State) : Prop where
  cfg_eq : s.cfg = cfg
  mode : s.mode = .idle
  host : s.host = []
  responses : s.responses = []

theorem State.advance_of_ne {s : State} (h : s.upc + 1 ≠ s.seqLen) : s.advance = { s with upc := s.upc + 1 } := by
  unfold State.advance
  rw [if_neg h]

/-- Construction answers no command when it ends (R112). -/
theorem State.advance_construction {s : State} (h : s.upc + 1 = s.seqLen) (hc : s.cur = .init) :
    s.advance = s.toIdle := by
  rw [State.advance_eq, if_pos h, hc]
  rfl

section
variable {cfg : Cfg} {s : State}

/-- The next step of a construction makes a write and the host's next move. -/
theorem State.Constructing.step_eq {k : Nat} (h : s.Constructing cfg (k + 1)) (hwf : cfg.wf = true)
    (hctrl : cfg.ctrlAvail = true) : ∃ op, step s = .next (s.clearRsp.popHost.written op).advance := by
  have hlt : s.upc < initLen s.cfg := by
    have := h.position
    rw [h.cfg_eq]
    omega
  obtain ⟨op, hop⟩ := Option.isSome_iff_exists.1 (initOp_isSome (bank := s.bits) hlt)
  have hop : s.microOp = some op := by
    unfold State.microOp
    rw [h.cur]
    exact hop
  have hr : s.rstAsserted = false := by
    unfold State.rstAsserted
    rw [h.host]
    rfl
  have hwaits : s.clearRsp.hostWaits = s.clearRsp.popHost := by
    unfold State.hostWaits
    rw [State.clearRsp_host, h.host]
    rfl
  rw [← hwaits]
  exact ⟨op, step_written (h.cfg_eq ▸ hwf) hr (.inl h.mode) hop (fun _ => h.cfg_eq ▸ hctrl) h.writes.writeFails⟩

theorem State.Constructing.seqLen_eq {k : Nat} (h : s.Constructing cfg k) (op : MicroOp) :
    (s.clearRsp.popHost.written op).seqLen = initLen cfg := by
  simp [State.seqLen, h.cur, h.cfg_eq]

/-- A write before the last position leads to the next one. -/
theorem State.Constructing.advance {k : Nat} (h : s.Constructing cfg (k + 2)) (op : MicroOp) :
    (s.clearRsp.popHost.written op).advance.Constructing cfg (k + 1) := by
  have hpos := h.position
  have hmore : (s.clearRsp.popHost.written op).upc + 1 ≠ (s.clearRsp.popHost.written op).seqLen := by
    rw [h.seqLen_eq]
    simpa using (show s.upc + 1 ≠ initLen cfg by omega)
  rw [State.advance_of_ne hmore]
  exact
    { cfg_eq := by simpa using h.cfg_eq
      mode := by simpa using h.mode
      cur := by simpa using h.cur
      position := by simpa using (show s.upc + 1 + (k + 1) = initLen cfg by omega)
      host := by simp [h.host]
      writes := h.writes.tail
      responses := by simpa using h.responses }

/-- The write of the last position ends the construction, without a response (R191, R112). -/
theorem State.Constructing.finish (h : s.Constructing cfg 1) (op : MicroOp) :
    (s.clearRsp.popHost.written op).advance.Constructed cfg := by
  have hlast : (s.clearRsp.popHost.written op).upc + 1 = (s.clearRsp.popHost.written op).seqLen := by
    rw [h.seqLen_eq]
    simpa using h.position
  rw [State.advance_construction hlast (by simpa using h.cur)]
  exact
    { cfg_eq := by simpa using h.cfg_eq
      mode := rfl
      host := by simp [h.host]
      responses := by simpa using h.responses }

end

/-- Construction runs to its end, by induction on the micro-operations to go (R191). -/
theorem State.Constructing.run {cfg : Cfg} (hwf : cfg.wf = true) (hctrl : cfg.ctrlAvail = true) {k : Nat} {s : State}
    (h : s.Constructing cfg (k + 1)) : ∃ u, Host.Core.run core (k + 1) s = .next u ∧ u.Constructed cfg := by
  induction k generalizing s with
  | zero =>
    obtain ⟨op, hstep⟩ := h.step_eq hwf hctrl
    exact ⟨_, run_succ hstep 0, h.finish op⟩
  | succ k ih =>
    obtain ⟨op, hstep⟩ := h.step_eq hwf hctrl
    obtain ⟨u, hrun, hu⟩ := ih (h.advance op)
    exact ⟨u, (run_succ hstep _).trans hrun, hu⟩

/-- A reset puts the block at the first position of its construction (R190). -/
theorem State.Constructing.ofReset {s : State} {avail : Bool} (havail : s.cfg.ctrlAvail = avail)
    (hhost : s.host = .reset avail :: List.replicate (initLen s.cfg) .wait)
    (hwrites : s.writesSucceed (initLen s.cfg)) :
    (s.popHost.assertRst avail).Constructing s.cfg (initLen s.cfg) where
  cfg_eq := by rw [← havail]; rfl
  mode := rfl
  cur := rfl
  position := Nat.zero_add _
  host := by simp [hhost]
  writes := hwrites
  responses := rfl

/-- A construction performed on this block: one step of reset and the run of InitSeq end in `IDLE` (R79, R191). -/
theorem SourceOp.construct_runs {cfg : Cfg} {s : State} (hwf : cfg.wf = true) (hctrl : cfg.ctrlAvail = true)
    (hlen : s.chain.sh.length = s.cfg.nbits)
    (hwrites : cfg.pinFault = true → ∀ b ∈ s.pinErr.take (initLen cfg), b = false) :
    ∃ t u, (SourceOp.construct cfg).perform s = some t ∧ t.cfg = cfg ∧ t.chain.sh.length = cfg.nbits ∧
      t.presented = none ∧ Host.Core.run core (initLen cfg + 1) t = .next u ∧ u.Constructed cfg := by
  have hstart := State.Constructing.ofReset (avail := cfg.ctrlAvail)
    (s := { s.configure cfg with host := .reset cfg.ctrlAvail :: List.replicate (initLen cfg) .wait }) rfl rfl hwrites
  obtain ⟨u, hrun, hu⟩ := hstart.run hwf hctrl
  exact ⟨_, u, SourceOp.perform_construct cfg s, rfl, State.configure_chainLength cfg hlen, rfl,
    (run_succ (step_reset hwf rfl) _).trans hrun, hu⟩

/-- Settles O60: the commands by the round trip of O1, destruction by its one move, construction by its run. -/
theorem sourceOperationsPerformed : Obligations.SourceOperationsPerformed := by
  refine ⟨fun _ _ => rfl, fun _ => rfl, fun _ => rfl, fun _ => rfl, rfl, fun _ => rfl, rfl, rfl, rfl, rfl,
    fun o i s hcommand => ⟨fun hwf => ?_, fun hwf => ?_⟩, fun avail s => SourceOp.perform_destroy avail s,
    fun cfg s hwf hctrl hlen hwrites => ?_⟩
  · refine ⟨encode i, decodeEncodeRoundTrip i hwf, ?_⟩
    rw [SourceOp.perform_command hcommand, issueMove_wellFormed hwf]
    rfl
  · rw [SourceOp.perform_command hcommand, issueMove_illFormed hwf]
    rfl
  · obtain ⟨t, u, hperform, hcfg, hchain, hnone, hrun, hu⟩ := SourceOp.construct_runs hwf hctrl hlen hwrites
    exact ⟨t, u, hperform, hcfg, hchain, hnone, hrun, hu.cfg_eq, decide_eq_true hu.mode, hu.host, hu.responses⟩

end Sys2Proof.Machine
end

section
/-! SUPPORT. The bank family in `IDLE` (40_bank_ops R90 to R95): what each of its commands answers, in range and out of
range; a bank as the bits read from it; and a sequence of SETBITs of one value. -/

namespace Sys2Proof.Machine

/-! Range checks (R53) and zero extensions (R92, R93). -/

theorem bitInRange_iff {cfg : Cfg} {idx : Nat} : bitInRange cfg idx = true ↔ idx < 8 * cfg.n := decide_eq_true_iff

theorem regInRange_iff {cfg : Cfg} {reg : Nat} : regInRange cfg reg = true ↔ reg < cfg.n := decide_eq_true_iff

theorem zextBit_eq_ite (b : Bool) : zextBit b = if b then 1 else 0 := by cases b <;> rfl

theorem toNat_zextByte (b : Byte) : (zextByte b).toNat = b.toNat :=
  BitVec.toNat_setWidth_of_le (by decide)

theorem getLsbD_zextByte (b : Byte) {j : Nat} (hj : j < 8) : (zextByte b).getLsbD j = b.getLsbD j := by
  rw [zextByte, BitVec.getLsbD_setWidth, decide_eq_true (by omega : j < 16), Bool.true_and]

/-! The bank as its bits. -/

theorem getLsbD_fillByte (v : Bool) {j : Nat} (hj : j < 8) : (fillByte v).getLsbD j = v := by
  cases v
  · exact BitVec.getLsbD_zero
  · exact (BitVec.getLsbD_allOnes (v := 8)).trans (decide_eq_true hj)

theorem Memory.bitRead_fill {n k : Nat} (v : Bool) (hk : k < 8 * n) : (Memory.fill n (fillByte v)).bitRead k = v := by
  have hreg : regIndex k < n := by unfold regIndex; omega
  rw [Memory.bitRead, Memory.read_fill, if_pos hreg, getLsbD_fillByte v (bitIndex_lt k)]

/-- A bit beyond the registers of the bank reads as 0 (R33). -/
theorem Memory.bitRead_beyond {m : Memory} {n k : Nat} (h : m.within n) (hk : 8 * n ≤ k) : m.bitRead k = false := by
  have hreg : n ≤ regIndex k := by unfold regIndex; omega
  rw [Memory.bitRead, Memory.read_beyond h hreg]
  exact BitVec.getLsbD_zero

/-- A canonical bank is determined by its bits: bit `j` of register `r` is that of index `8*r + j` (R22). -/
theorem Memory.ext_of_bitRead {m m' : Memory} (h : m.wf) (h' : m'.wf) (hbit : ∀ k, m.bitRead k = m'.bitRead k) :
    m = m' := by
  refine Memory.ext_of_read h h' fun r => BitVec.eq_of_getLsbD_eq fun j hj => ?_
  have hreg : regIndex (8 * r + j) = r := by unfold regIndex; omega
  have hidx : bitIndex (8 * r + j) = j := by unfold bitIndex; omega
  simpa only [Memory.bitRead, hreg, hidx] using hbit (8 * r + j)

/-- `BitWrite(k, v)` for the indices `k` of a list, in its order (R12, R91). -/
def Memory.writeBits (m : Memory) (order : List Nat) (v : Bool) : Memory := order.foldl (·.bitWrite · v) m

theorem Memory.writeBits_cons (m : Memory) (k : Nat) (order : List Nat) (v : Bool) :
    m.writeBits (k :: order) v = (m.bitWrite k v).writeBits order v := rfl

theorem Memory.wf_writeBits {m : Memory} (h : m.wf) (order : List Nat) (v : Bool) : (m.writeBits order v).wf := by
  induction order generalizing m with
  | nil => exact h
  | cons k order ih => exact ih (Memory.wf_bitWrite h k v)

theorem Memory.bitRead_writeBits {m : Memory} (h : m.wf) (order : List Nat) (v : Bool) (k : Nat) :
    (m.writeBits order v).bitRead k = if k ∈ order then v else m.bitRead k := by
  induction order generalizing m with
  | nil => rfl
  | cons i order ih =>
    rw [Memory.writeBits_cons, ih (Memory.wf_bitWrite h i v), Memory.bitRead_bitWrite h]
    by_cases hi : k = i <;> simp [hi]

/-- Writing `v` to every bit of the bank, in any order, fills the bank with `v` (R91). -/
theorem Memory.writeBits_eq_fill {m : Memory} {n : Nat} {order : List Nat} (h : m.wf) (hn : m.within n)
    (horder : ∀ k, k ∈ order ↔ k < 8 * n) (v : Bool) : m.writeBits order v = Memory.fill n (fillByte v) := by
  refine Memory.ext_of_bitRead (Memory.wf_writeBits h order v) (Memory.wf_fill _ _) fun k => ?_
  rw [Memory.bitRead_writeBits h]
  by_cases hk : k < 8 * n
  · rw [if_pos ((horder k).2 hk), Memory.bitRead_fill v hk]
  · have hbeyond : 8 * n ≤ k := by omega
    rw [if_neg (mt (horder k).1 hk), Memory.bitRead_beyond hn hbeyond,
      Memory.bitRead_beyond (Memory.within_fill _ _) hbeyond]

/-! The commands in `IDLE`, in range and out of range (R90 to R93, R53). -/

/-- A command has replaced the bank by `bits` and is answered `OK` (R90, R91). -/
def State.storeBank (s : State) (bits : Memory) (w : Word) : State := { s with bits := bits }.respond w .ok 0

@[simp] theorem State.storeBank_bits (s : State) (bits : Memory) (w : Word) : (s.storeBank bits w).bits = bits := rfl

section
variable {s : State} (hc : s.cfg.wf = true) (hm : s.mode = .idle)
include hc hm

theorem exec_setbit_inRange {idx : Nat} (v : Bool) (hk : idx < 8 * s.cfg.n) :
    exec (.setbit idx v) s = .next (s.storeBank (s.bits.bitWrite idx v) (encode (.setbit idx v))) := by
  rw [exec_setbit, State.accept_idle _ hc hm, if_pos (bitInRange_iff.2 hk), State.storeBank]

theorem exec_setbit_outOfRange {idx : Nat} (v : Bool) (hk : 8 * s.cfg.n ≤ idx) :
    exec (.setbit idx v) s = .next (s.raise .range (encode (.setbit idx v))) := by
  rw [exec_setbit, State.accept_idle _ hc hm, if_neg (mt bitInRange_iff.1 (by omega))]

theorem exec_setall_idle (v : Bool) :
    exec (.setall v) s = .next (s.storeBank (Memory.fill s.cfg.n (fillByte v)) (encode (.setall v))) := by
  rw [exec_setall, State.accept_idle _ hc hm, State.storeBank]

theorem exec_getbit_inRange {idx : Nat} (hk : idx < 8 * s.cfg.n) :
    exec (.getbit idx) s =
      .next (s.respond (encode (.getbit idx)) .ok (if s.bits.bitRead idx then 1 else 0)) := by
  rw [exec_getbit, State.accept_idle _ hc hm, if_pos (bitInRange_iff.2 hk), zextBit_eq_ite]

theorem exec_getbit_outOfRange {idx : Nat} (hk : 8 * s.cfg.n ≤ idx) :
    exec (.getbit idx) s = .next (s.raise .range (encode (.getbit idx))) := by
  rw [exec_getbit, State.accept_idle _ hc hm, if_neg (mt bitInRange_iff.1 (by omega))]

theorem exec_rdbyte_inRange {reg : Nat} (hr : reg < s.cfg.n) :
    exec (.rdbyte reg) s = .next (s.respond (encode (.rdbyte reg)) .ok (zextByte (s.bits.read reg))) := by
  rw [exec_rdbyte, State.accept_idle _ hc hm, if_pos (regInRange_iff.2 hr)]

theorem exec_rdbyte_outOfRange {reg : Nat} (hr : s.cfg.n ≤ reg) :
    exec (.rdbyte reg) s = .next (s.raise .range (encode (.rdbyte reg))) := by
  rw [exec_rdbyte, State.accept_idle _ hc hm, if_neg (mt regInRange_iff.1 (by omega))]

/-- Of two SETBITs of one index the second decides the bit, and every other bit stays (R95, first law). -/
theorem exec_setbit_setbit (hb : s.bits.wf) {idx : Nat} (hk : idx < 8 * s.cfg.n) (v v' : Bool) :
    ∃ t u, exec (.setbit idx v) s = .next t ∧ exec (.setbit idx v') t = .next u ∧
      ∀ k, u.bits.bitRead k = if k = idx then v' else s.bits.bitRead k := by
  refine ⟨_, _, exec_setbit_inRange hc hm v hk, exec_setbit_inRange (s := s.storeBank _ _) hc hm v' hk, fun k => ?_⟩
  rw [State.storeBank_bits, State.storeBank_bits, Memory.bitRead_bitWrite (Memory.wf_bitWrite hb idx v),
    Memory.bitRead_bitWrite hb]
  split_ifs <;> rfl

/-- After SETALL 1 every bit reads 1, and a second SETALL 1 leaves the bank (R95, second law). -/
theorem exec_setall_true_law :
    ∃ t, exec (.setall true) s = .next t ∧
      (∀ k < 8 * s.cfg.n, ∃ u, exec (.getbit k) t = .next u ∧ Answers t u (encode (.getbit k)) .ok 1) ∧
      ∃ u, exec (.setall true) t = .next u ∧ u.bits = t.bits := by
  refine ⟨_, exec_setall_idle hc hm true,
    fun k hk => ⟨_, exec_getbit_inRange (s := s.storeBank _ _) hc hm hk, ?_⟩,
    ⟨_, exec_setall_idle (s := s.storeBank _ _) hc hm true, rfl⟩⟩
  rw [State.storeBank_bits, Memory.bitRead_fill true hk]
  exact ⟨rfl, rfl⟩

/-- GETBIT answers a bit of the byte that RDBYTE answers (R95, third law). -/
theorem exec_getbit_rdbyte {k : Nat} (hk : k < 8 * s.cfg.n) :
    ∃ t u b d, exec (.getbit k) s = .next t ∧ exec (.rdbyte (k / 8)) s = .next u ∧
      Answers s t (encode (.getbit k)) .ok (if b then 1 else 0) ∧
      Answers s u (encode (.rdbyte (k / 8))) .ok d ∧ b = d.getLsbD (k % 8) :=
  ⟨_, _, _, _, exec_getbit_inRange hc hm hk, exec_rdbyte_inRange hc hm (by omega), ⟨rfl, rfl⟩, ⟨rfl, rfl⟩,
    (getLsbD_zextByte _ (bitIndex_lt k)).symm⟩

/-- SETBIT leaves what GETBIT answers at every other index (R95, fourth law). -/
theorem exec_setbit_getbit_other (hb : s.bits.wf) {k k' : Nat} (hk : k < 8 * s.cfg.n) (hk' : k' < 8 * s.cfg.n)
    (hne : k' ≠ k) (v : Bool) :
    ∃ t u u', exec (.setbit k v) s = .next t ∧ exec (.getbit k') s = .next u ∧ exec (.getbit k') t = .next u' ∧
      u.rsp = u'.rsp := by
  refine ⟨_, _, _, exec_setbit_inRange hc hm v hk, exec_getbit_inRange hc hm hk',
    exec_getbit_inRange (s := s.storeBank _ _) hc hm hk', ?_⟩
  rw [State.respond_rsp, State.respond_rsp, State.storeBank_bits, Memory.bitRead_bitWrite hb, if_neg hne]

end

/-- SETBITs of one value at indices in range, one after the other, answer next states throughout and write those bits;
`run` is the execution of one more SETBIT after an outcome (R90, R91). -/
theorem foldl_setbit {run : Host.Outcome State Fault Refusal → Nat → Host.Outcome State Fault Refusal} {v : Bool}
    (hrun : ∀ x k, run (.next x) k = exec (.setbit k v) x) {s : State} (hc : s.cfg.wf = true) (hm : s.mode = .idle)
    {order : List Nat} (horder : ∀ k ∈ order, k < 8 * s.cfg.n) :
    ∃ u, order.foldl run (.next s) = .next u ∧ u.bits = s.bits.writeBits order v := by
  induction order generalizing s with
  | nil => exact ⟨s, rfl, rfl⟩
  | cons k order ih =>
    obtain ⟨hk, hrest⟩ := List.forall_mem_cons.1 horder
    rw [List.foldl_cons, hrun, exec_setbit_inRange hc hm v hk]
    exact ih (s := s.storeBank _ _) hc hm hrest

/-- Settles O18: in range one bit write, out of range the range error. -/
theorem setbitWritesOneBit : Obligations.SetbitWritesOneBit := by
  intro s idx v hc hm hb
  constructor
  · intro hk
    exact ⟨_, exec_setbit_inRange hc hm v hk, fun k => Memory.bitRead_bitWrite hb idx v k, ⟨rfl, rfl⟩, rfl⟩
  · intro hk
    exact ⟨_, exec_setbit_outOfRange hc hm v hk, ⟨rfl, rfl⟩, rfl⟩

/-- Settles O19: one bulk fill, whose every register below `N` reads as the byte. -/
theorem setallFillsBank : Obligations.SetallFillsBank := by
  intro s v hc hm
  refine ⟨_, exec_setall_idle hc hm v, fun r hr => ?_, ⟨rfl, rfl⟩, rfl⟩
  rw [State.storeBank_bits, Memory.read_fill, if_pos hr, fillByte]

/-- Settles O20: the SETBITs write every bit of the bank, and that is the bulk fill. -/
theorem setallIsAllSetbits : Obligations.SetallIsAllSetbits := by
  intro s t v order hc hm hb hn horder ht
  have hmem : ∀ k, k ∈ order ↔ k < 8 * s.cfg.n := fun k => horder.mem_iff.trans List.mem_range
  obtain rfl : _ = t := Host.Outcome.next.inj ((exec_setall_idle hc hm v).symm.trans ht)
  rw [State.storeBank_bits, ← Memory.writeBits_eq_fill hb hn hmem v]
  exact foldl_setbit (fun _ _ => rfl) hc hm fun k hk => (hmem k).1 hk

/-- Settles O21: in range the bit of the index mapping, out of range the range error. -/
theorem getbitAnswersBit : Obligations.GetbitAnswersBit := by
  intro s idx hc hm
  constructor
  · intro hk
    exact ⟨_, exec_getbit_inRange hc hm hk, ⟨rfl, rfl⟩, rfl⟩
  · intro hk
    exact ⟨_, exec_getbit_outOfRange hc hm hk, ⟨rfl, rfl⟩, rfl⟩

/-- Settles O22: in range the byte zero extended, out of range the range error. -/
theorem rdbyteAnswersByte : Obligations.RdbyteAnswersByte := by
  intro s reg hc hm
  constructor
  · intro hr
    exact ⟨_, _, exec_rdbyte_inRange hc hm hr, ⟨rfl, rfl⟩, toNat_zextByte _, rfl⟩
  · intro hr
    exact ⟨_, exec_rdbyte_outOfRange hc hm hr, ⟨rfl, rfl⟩, rfl⟩

/-- Settles O23: the four laws, the first in both orders. -/
theorem bankFamilyLaws : Obligations.BankFamilyLaws := fun _ hc hm hb =>
  ⟨fun _ hk => exec_setbit_setbit hc hm hb hk true false, fun _ hk => exec_setbit_setbit hc hm hb hk false true,
    exec_setall_true_law hc hm, fun _ hk => exec_getbit_rdbyte hc hm hk,
    fun _ hk _ hk' hne v => exec_setbit_getbit_other hc hm hb hk hk' hne v⟩

end Sys2Proof.Machine
end

section
/-! SUPPORT. The writes of CommitSeq: the nested loops of COMMIT unrolled (41_commit R110, R111), how many writes each
line takes (R115), and the step that accepts the command (R112). -/

namespace Sys2Proof.Machine

/-- Settles O25: COMMIT is one acceptance, in `IDLE` its effect. -/
theorem commitAccepted : Obligations.CommitAccepted := fun s hc hm => by
  rw [exec_commit, State.accept_idle _ hc hm, State.startSequence]

/-! The nested loops (R110). -/

theorem range_reverse_eq_map (m : Nat) : (List.range m).reverse = (List.range m).map (m - 1 - ·) := by
  simp [List.range_eq_range', List.reverse_range']

/-- Registers from the last to 0 and in each the bits from 7 to 0 are the logical indices downwards (R22, R52). -/
theorem flatMap_registers_bits {α : Type} (n : Nat) (f : Nat → List α) :
    ((List.range n).reverse.flatMap fun r => (List.range 8).reverse.flatMap fun b => f (8 * r + b)) =
      (List.range (8 * n)).reverse.flatMap f := by
  induction n with
  | zero => rfl
  | succ n ih =>
    rw [List.range_succ (n := n), List.reverse_concat, List.flatMap_cons, ih, Nat.mul_succ, List.range_add,
      List.reverse_append, List.flatMap_append, ← List.map_reverse, List.flatMap_map]

/-- The mask test of R110 reads the logical bit `8*r + b` (R22). -/
theorem pinValue_eq_bitRead (bank : Memory) (r : Nat) {b : Nat} (hb : b < 8) :
    pinValue bank r b = bank.bitRead (8 * r + b) := by
  have hreg : regIndex (8 * r + b) = r := by unfold regIndex; omega
  have hidx : bitIndex (8 * r + b) = b := by unfold bitIndex; omega
  have hmask : BitVec.twoPow 8 b ≠ 0#8 := fun h => by
    simpa [hb] using congrArg (·.getLsbD b) h
  rw [Memory.bitRead, hreg, hidx, pinValue, ← BitVec.twoPow_eq, BitVec.and_twoPow]
  cases (bank.read r).getLsbD b <;> simp [hmask]

/-- The writes of CommitSeq are those of the nested loops (R110, R111). -/
theorem commitEvents_eq_commitWrites (n : Nat) (bank : Memory) : commitEvents n bank = commitWrites n bank := by
  have hbyte (r : Nat) : ((List.range 8).reverse.flatMap fun b => bitWrites (pinValue bank r b)) =
      (List.range 8).reverse.flatMap fun b => bitWrites (bank.bitRead (8 * r + b)) :=
    List.flatMap_congr fun b hb => by
      rw [pinValue_eq_bitRead bank r (List.mem_range.1 (List.mem_reverse.1 hb))]
  simp only [commitEvents_eq, commitWrites, hbyte]
  rw [flatMap_registers_bits n fun k => bitWrites (bank.bitRead k), range_reverse_eq_map, List.flatMap_map]
  rfl

/-- Settles O26: every position below the length has its write, and these are the writes of the loops. -/
theorem commitSeqUnrollsLoops : Obligations.CommitSeqUnrollsLoops := by
  intro n bank
  constructor
  · have hsome : ∀ e ∈ (List.range (24 * n + 2)).map fun k => (commitOp n bank k).map MicroOp.event,
        e.isSome = true := by
      simp only [List.forall_mem_map, Option.isSome_map]
      exact fun k hk => commitOp_isSome.2 (List.mem_range.1 hk)
    rw [← commitEvents_eq_commitWrites, commitEvents, List.map_filterMap_some_eq_filter_map_isSome,
      List.filter_eq_self.2 hsome]
    rfl
  · intro k hk
    rw [← Option.not_isSome_iff_eq_none, commitOp_isSome]
    exact Nat.not_lt.2 hk

/-! The counts (R115). -/

/-- How often CommitSeq makes one write: at its two ends, and in the group of each bit. -/
theorem commitEvents_count (n : Nat) (bank : Memory) (e : Event) :
    (commitEvents n bank).count e = [.w .stcp .l, .w .stcp .h].count e +
      ((List.range (8 * n)).map fun g => (bitWrites (bank.bitRead (8 * n - 1 - g))).count e).sum := by
  simp only [commitEvents_eq, List.cons_append, List.count_cons, List.count_append, List.count_nil, List.count_flatMap,
    Function.comp_def]
  omega

/-- A write that every group makes `c` times. -/
theorem commitEvents_count_of_group (n : Nat) (bank : Memory) {e : Event} (c : Nat)
    (hgroup : ∀ d, (bitWrites d).count e = c) :
    (commitEvents n bank).count e = [.w .stcp .l, .w .stcp .h].count e + 8 * n * c := by
  simp only [commitEvents_count, hgroup, List.map_const', List.sum_replicate, List.length_range, smul_eq_mul]

/-- Each group has one Data write, Low or High. -/
theorem commitEvents_count_data (n : Nat) (bank : Memory) :
    (commitEvents n bank).count (.w .ds .l) + (commitEvents n bank).count (.w .ds .h) = 8 * n := by
  have hends (v : Level) : [Event.w .stcp .l, .w .stcp .h].count (.w .ds v) = 0 := rfl
  have hgroup (d : Bool) : (bitWrites d).count (.w .ds .l) + (bitWrites d).count (.w .ds .h) = 1 := by
    cases d <;> rfl
  simp only [commitEvents_count, hends, Nat.zero_add, ← List.sum_map_add, hgroup, List.map_const', List.sum_replicate,
    List.length_range, smul_eq_mul, Nat.mul_one]

/-- Settles O28: from the groups of CommitSeq, two writes of `SHCP` and one of `DS` in each. -/
theorem commitWriteCounts : Obligations.CommitWriteCounts := by
  intro n bank
  refine ⟨?_, ?_, ?_, ?_, ?_, ?_, commitEvents_count_data n bank⟩
  · simp only [commitEvents_eq, bitWrites, List.length_append, List.length_cons, List.length_nil, List.length_flatMap,
      List.map_const', List.sum_replicate, List.length_range, smul_eq_mul]
    omega
  · rw [commitEvents_eq, List.getLast?_concat]
  · exact commitEvents_count_of_group n bank 0 fun d => by cases d <;> rfl
  · exact commitEvents_count_of_group n bank 0 fun d => by cases d <;> rfl
  · simpa using commitEvents_count_of_group n bank (e := .w .shcp .l) 1 fun d => by cases d <;> rfl
  · simpa using commitEvents_count_of_group n bank (e := .w .shcp .h) 1 fun d => by cases d <;> rfl

end Sys2Proof.Machine
end

section
/-! SUPPORT. One step of a running sequence whose write does not fail (41_commit R112): the one line it writes, what it
does to the bank, the position or the end it leads to; in a COMMIT, an MRESET (42_oe_mr_status R134) and a construction
(70_reset R191). -/

namespace Sys2Proof.Machine

/-- What a step of a running sequence leaves when it has written `op` (R112). -/
def State.afterWrite (s : State) (op : MicroOp) : State := (s.clearRsp.hostWaits.written op).advance

theorem step_afterWrite {s : State} {op : MicroOp} (hc : s.cfg.wf = true) (hr : s.rstAsserted = false)
    (hm : s.mode = .init ∨ s.mode = .busy) (hop : s.microOp = some op)
    (htest : op.testsCtrl = true → s.cfg.ctrlAvail = true) (hw : s.writeFails = false) :
    step s = .next (s.afterWrite op) := step_written hc hr hm hop htest hw

section
variable (s : State) (op : MicroOp)

theorem State.afterWrite_writesLine : WritesLine s (s.afterWrite op) op.line op.high := by
  obtain ⟨hcfg, -, hlines, hen, hperr, hpf, hchain, htrace, -⟩ := (s.clearRsp.hostWaits.written op).advance_frame
  unfold State.afterWrite WritesLine
  rw [hcfg, hlines, hen, hperr, hpf, hchain, htrace]
  simp +contextual [Lines.get_set_other]

theorem State.afterWrite_bits :
    (s.afterWrite op).bits = if op.zeroesAfter then [] else if op.zeroesBefore then [] else s.bits := by
  obtain ⟨-, hbits, -⟩ := (s.clearRsp.hostWaits.written op).advance_frame
  rw [State.afterWrite, hbits, State.written_bits, State.hostWaits_bits, State.clearRsp_bits]

end

section
variable {s : State} {op : MicroOp}

theorem State.afterWrite_bits_zeroed (hz : op.zeroesBefore = true ∨ op.zeroesAfter = true) :
    (s.afterWrite op).bits = [] := by
  rw [State.afterWrite_bits]
  rcases hz with hz | hz <;> simp [hz]

/-- The bank stays but at the zeroing positions of MRESET and of construction (R56). -/
theorem State.afterWrite_bits_kept (hop : s.microOp = some op) (hmreset : ¬(s.cur = .mreset ∧ s.upc = 0))
    (hinit : ¬(s.cur = .init ∧ s.upc = initPrefixLen s.cfg)) : (s.afterWrite op).bits = s.bits := by
  have hz : ¬(op.zeroesBefore = true ∨ op.zeroesAfter = true) := fun hz =>
    (State.microOp_zeroes hop hz).elim hmreset hinit
  simp only [not_or, Bool.not_eq_true] at hz
  rw [State.afterWrite_bits, hz.1, hz.2]
  rfl

/-- Before its last position the sequence goes on, and nothing is answered (R112). -/
theorem State.afterWrite_goesOn (h : s.upc + 1 ≠ s.seqLen) :
    (s.afterWrite op).mode = s.mode ∧ (s.afterWrite op).cur = s.cur ∧ (s.afterWrite op).upc = s.upc + 1 ∧
      (s.afterWrite op).rsp = none ∧ (s.afterWrite op).responses = s.responses := by
  have h : (s.clearRsp.hostWaits.written op).upc + 1 ≠ (s.clearRsp.hostWaits.written op).seqLen := by
    simpa [State.seqLen] using h
  simp [State.afterWrite, State.advance_of_ne h]

/-- The last write of a command's sequence ends it with the one response (R112). -/
theorem State.afterWrite_answers {w : Word} (h : s.upc + 1 = s.seqLen) (hw : s.cur.command = some w) :
    (s.afterWrite op).mode = .idle ∧ (s.afterWrite op).cur = .none ∧ (s.afterWrite op).upc = 0 ∧
      Answers s (s.afterWrite op) w .ok 0 := by
  have h : (s.clearRsp.hostWaits.written op).upc + 1 = (s.clearRsp.hostWaits.written op).seqLen := by
    simpa [State.seqLen] using h
  have hw : (s.clearRsp.hostWaits.written op).cur.command = some w := by simpa using hw
  rw [State.afterWrite, State.advance_eq, if_pos h, hw]
  simp [Answers]

/-- The last write of construction ends it without a response (R112, R191). -/
theorem State.afterWrite_constructed (h : s.upc + 1 = s.seqLen) (hc : s.cur = .init) :
    (s.afterWrite op).mode = .idle ∧ (s.afterWrite op).cur = .none ∧ (s.afterWrite op).upc = 0 ∧
      (s.afterWrite op).rsp = none ∧ (s.afterWrite op).responses = s.responses := by
  have h : (s.clearRsp.hostWaits.written op).upc + 1 = (s.clearRsp.hostWaits.written op).seqLen := by
    simpa [State.seqLen] using h
  rw [State.afterWrite, State.advance_construction h (by simpa using hc)]
  simp

end

/-! The sequence that runs (R28). -/

theorem State.seqLen_commit {s : State} (hc : s.cur = .commit) : s.seqLen = 24 * s.cfg.n + 2 := by
  rw [State.seqLen, hc, commitLen]

theorem State.seqLen_mreset {s : State} (hc : s.cur = .mreset) : s.seqLen = 24 * s.cfg.n + 4 := by
  rw [State.seqLen, hc, mresetLen]

theorem State.seqLen_init {s : State} (hc : s.cur = .init) : s.seqLen = initLen s.cfg := by
  rw [State.seqLen, hc]

theorem State.microOp_commit {s : State} (hc : s.cur = .commit) : s.microOp = commitOp s.cfg.n s.bits s.upc := by
  rw [State.microOp, hc]

theorem State.microOp_mreset {s : State} (hc : s.cur = .mreset) : s.microOp = mresetOp s.cfg s.bits s.upc := by
  rw [State.microOp, hc]

theorem State.microOp_init {s : State} (hc : s.cur = .init) : s.microOp = initOp s.cfg s.bits s.upc := by
  rw [State.microOp, hc]

/-- Settles O29: the micro-operation at `upc` is written, and it is a plain one of CommitSeq. -/
theorem commitStepWritesOneLine : Obligations.CommitStepWritesOneLine := by
  intro s hc hr hm hcur hlt hw
  have hlen := State.seqLen_commit hcur
  obtain ⟨op, hop⟩ := Option.isSome_iff_exists.1 ((commitOp_isSome (bank := s.bits)).2 hlt)
  have hmicro := (State.microOp_commit hcur).trans hop
  have htest : op.testsCtrl = true → s.cfg.ctrlAvail = true := fun ht => by simp [(commitOp_plain hop).1] at ht
  obtain ⟨htrace, hline, hothers, -, -, hen, hperr, hpf⟩ := s.afterWrite_writesLine op
  refine ⟨s.afterWrite op, op, hop, step_afterWrite hc hr (.inr hm) hmicro htest hw, htrace, hline, hothers,
    State.afterWrite_bits_kept hmicro (by simp [hcur]) (by simp [hcur]), hen, hperr, hpf, fun hmore => ?_,
    fun hlast => ?_⟩
  · simpa only [hm, hcur] using State.afterWrite_goesOn (op := op) (by omega : s.upc + 1 ≠ s.seqLen)
  · exact State.afterWrite_answers (hlast.trans hlen.symm) (by rw [hcur]; rfl)

/-! MresetSeq by position (R134). -/

section
variable {cfg : Cfg} {bank : Memory} {k : Nat} {op : MicroOp}

/-- No micro-operation of MresetSeq tests the pin capability. -/
theorem mresetOp_testsCtrl (h : mresetOp cfg bank k = some op) : op.testsCtrl = false := by
  obtain ⟨-, ⟨-, rfl⟩ | ⟨-, -, hcommit⟩ | ⟨-, rfl⟩⟩ := mresetOp_cases h
  · rfl
  · exact (commitOp_plain hcommit).1
  · rfl

theorem mresetOp_first (hb : cfg.mrBound = true) :
    mresetOp cfg bank 0 = some { driveLow .mr with zeroesAfter := true } := by
  rw [mresetOp, if_pos hb, if_pos rfl]

theorem mresetOp_commit (hb : cfg.mrBound = true) (hpos : 0 < k) (hk : k ≤ 24 * cfg.n + 2) :
    mresetOp cfg bank k = commitOp cfg.n bank (k - 1) := by
  rw [mresetOp, if_pos hb, if_neg (Nat.ne_of_gt hpos), if_pos hk]

theorem mresetOp_last (hb : cfg.mrBound = true) : mresetOp cfg bank (24 * cfg.n + 3) = some (driveHigh .mr) := by
  rw [mresetOp, if_pos hb, if_neg (by omega), if_neg (by omega), if_pos rfl]

end

/-- Settles O58: the micro-operation at `upc` is written; which one it is, position by position. -/
theorem mresetStepWritesOneLine : Obligations.MresetStepWritesOneLine := by
  intro s hc hr hm hcur hb hlt hw
  have hlen := State.seqLen_mreset hcur
  obtain ⟨op, hop⟩ := Option.isSome_iff_exists.1 (mresetOp_isSome (bank := s.bits) hb hlt)
  have hmicro := (State.microOp_mreset hcur).trans hop
  have htest : op.testsCtrl = true → s.cfg.ctrlAvail = true := fun ht => by simp [mresetOp_testsCtrl hop] at ht
  refine ⟨s.afterWrite op, op.line, op.high, step_afterWrite hc hr (.inr hm) hmicro htest hw,
    s.afterWrite_writesLine op, fun hfirst => ?_, fun hpos => ?_, fun hpos hle => ?_, fun hlast => ?_, fun hmore => ?_,
    fun hend => ?_⟩
  · rw [hfirst, mresetOp_first hb] at hop
    cases hop
    exact ⟨rfl, rfl, fun r => by rw [State.afterWrite_bits_zeroed (.inr rfl), Memory.read_nil]⟩
  · exact State.afterWrite_bits_kept hmicro (fun h => hpos.ne' h.2) (by simp [hcur])
  · exact ⟨op, (mresetOp_commit hb hpos hle).symm.trans hop, rfl, rfl⟩
  · rw [hlast, mresetOp_last hb] at hop
    cases hop
    exact ⟨rfl, rfl⟩
  · simpa only [hm, hcur] using State.afterWrite_goesOn (op := op) (by omega : s.upc + 1 ≠ s.seqLen)
  · exact State.afterWrite_answers (hend.trans hlen.symm) (by rw [hcur]; rfl)

/-! InitSeq by position (R191). -/

section
variable {cfg : Cfg} {bank : Memory} {k : Nat} {op : MicroOp}

/-- The pin capability is tested at the first position only (R191). -/
theorem initOp_testsCtrl (h : initOp cfg bank k = some op) (ht : op.testsCtrl = true) : k = 0 := by
  obtain ⟨hk, -⟩ | ⟨-, rfl⟩ | ⟨-, rfl⟩ | ⟨-, -, rfl⟩ | ⟨-, -, rfl⟩ | ⟨-, rfl⟩ | ⟨-, hcommit⟩ := initOp_cases h
  case inl => exact hk
  case inr.inr.inr.inr.inr.inr => simp [(commitOp_plain hcommit).1] at ht
  all_goals cases ht

/-- From `c0` on the micro-operations are those of CommitSeq, the first with the zeroing of the bank (R191). -/
theorem initOp_commit (h : initOp cfg bank k = some op) (hk : initPrefixLen cfg ≤ k) :
    (k = initPrefixLen cfg → op.zeroesBefore = true) ∧
      ∃ op', commitOp cfg.n bank (k - initPrefixLen cfg) = some op' ∧ op.line = op'.line ∧ op.high = op'.high := by
  have hthree := (initPrefixLen_le cfg).1
  rw [initOp, if_neg (by omega), if_neg (by omega), if_neg (by omega), if_neg (by omega)] at h
  split_ifs at h with hfirst
  · cases h
    exact ⟨fun _ => rfl, driveLow .stcp, by rw [hfirst, Nat.sub_self, commitOp_first], rfl, rfl⟩
  · exact ⟨fun heq => absurd heq hfirst, op, h, rfl, rfl⟩

end

/-- Settles O59: the micro-operation at `upc` is written; which one it is, position by position. -/
theorem initStepWritesOneLine : Obligations.InitStepWritesOneLine := by
  intro s c0 hc hr hm hcur hlt hctrl hw
  have hlen : s.seqLen = c0 + 24 * s.cfg.n + 2 := State.seqLen_init hcur
  obtain ⟨op, hop⟩ := Option.isSome_iff_exists.1 (initOp_isSome (bank := s.bits) hlt)
  have hmicro := (State.microOp_init hcur).trans hop
  have hquiet : (s.afterWrite op).rsp = none ∧ (s.afterWrite op).responses = s.responses := by
    by_cases hend : s.upc + 1 = s.seqLen
    · obtain ⟨-, -, -, hquiet⟩ := State.afterWrite_constructed (op := op) hend hcur
      exact hquiet
    · obtain ⟨-, -, -, hquiet⟩ := State.afterWrite_goesOn (op := op) hend
      exact hquiet
  refine ⟨s.afterWrite op, op.line, op.high,
    step_afterWrite hc hr (.inl hm) hmicro (fun ht => hctrl (initOp_testsCtrl hop ht)) hw, s.afterWrite_writesLine op,
    hquiet.1, hquiet.2, fun h0 => ?_, fun h1 => ?_, fun h2 => ?_, fun hb h3 => ?_, fun hb hk => ?_, fun hk r => ?_,
    fun hk => ?_, fun hk => (initOp_commit hop hk).2, fun hmore => ?_, fun hend => ?_⟩
  · rw [h0] at hop
    cases hop
    exact ⟨rfl, rfl⟩
  · rw [h1] at hop
    cases hop
    exact ⟨rfl, rfl⟩
  · rw [h2] at hop
    cases hop
    exact ⟨rfl, rfl⟩
  · rw [h3, initOp_oe _ hb] at hop
    cases hop
    exact ⟨rfl, rfl⟩
  · rw [hk, initOp_mr _ hb] at hop
    cases hop
    exact ⟨rfl, rfl⟩
  · rw [State.afterWrite_bits_zeroed (.inl ((initOp_commit hop hk.ge).1 hk)), Memory.read_nil]
  · exact State.afterWrite_bits_kept hmicro (by simp [hcur]) (fun h => hk h.2)
  · obtain ⟨hmode, hcur', hupc, -⟩ := State.afterWrite_goesOn (op := op) (by omega : s.upc + 1 ≠ s.seqLen)
    exact ⟨hmode.trans hm, hcur'.trans hcur, hupc⟩
  · obtain ⟨hmode, hcur', hupc, -⟩ := State.afterWrite_constructed (op := op) (hend.trans hlen.symm) hcur
    exact ⟨hmode, hcur', hupc⟩

end Sys2Proof.Machine
end

section
/-! SUPPORT. A running sequence over many steps, none of whose writes fails (41_commit R112): the run makes the writes
of the positions it passes, and the block changes in nothing else. The lines and the chips after a list of writes are a
function of their own, so that a claim about them needs no step of the machine (45_chain_reference R152). -/

namespace Sys2Proof.Machine

/-! The lines and the chips after a list of writes. -/

/-- The lines and the chips after one event: a successful write sets its line and the chips react (R12, R152). What
a failed write leaves is a draw that the event does not tell (R176); here it leaves everything. -/
def Event.act (cfg : Cfg) (wires : Lines × Chain) : Event → Lines × Chain
  | .w x v => (wires.1.set x v, wires.2.react cfg wires.1 (wires.1.set x v) x)
  | .wf _ _ => wires

/-- The lines and the chips after the writes `evs`, one after the other. -/
def wiresAfter (cfg : Cfg) (wires : Lines × Chain) (evs : List Event) : Lines × Chain :=
  evs.foldl (Event.act cfg) wires

theorem wiresAfter_cons (cfg : Cfg) (wires : Lines × Chain) (e : Event) (evs : List Event) :
    wiresAfter cfg wires (e :: evs) = wiresAfter cfg (e.act cfg wires) evs := rfl

theorem wiresAfter_append (cfg : Cfg) (wires : Lines × Chain) (evs evs' : List Event) :
    wiresAfter cfg wires (evs ++ evs') = wiresAfter cfg (wiresAfter cfg wires evs) evs' := List.foldl_append

/-! The state after a list of writes. -/

/-- The state after the successful writes `evs` of a running sequence that has not ended, with the host's moves `host`
left (R112). -/
def State.performed (s : State) (evs : List Event) (host : List HostMove) : State :=
  { s with
    lines := (wiresAfter s.cfg (s.lines, s.chain) evs).1
    chain := (wiresAfter s.cfg (s.lines, s.chain) evs).2
    upc := s.upc + evs.length
    rsp := none
    trace := s.trace ++ evs
    host := host
    pinErr := s.pinErrAfter evs.length }

theorem State.performed_nil {s : State} (hrsp : s.rsp = none) : s.performed [] s.host = s := by
  have hpin : s.pinErrAfter 0 = s.pinErr := ite_self _
  simp only [State.performed, List.length_nil, hpin, List.append_nil, Nat.add_zero, ← hrsp]
  rfl

theorem State.performed_performed (s : State) (evs evs' : List Event) (host host' : List HostMove) :
    (s.performed evs host).performed evs' host' = s.performed (evs ++ evs') host' := by
  have hpin : (s.performed evs host).pinErrAfter evs'.length = s.pinErrAfter (evs ++ evs').length := by
    show (if s.cfg.pinFault then (s.pinErrAfter evs.length).drop evs'.length else s.pinErrAfter evs.length) = _
    unfold State.pinErrAfter
    split_ifs
    · rw [List.drop_drop, List.length_append]
    · rfl
  rw [State.performed, hpin]
  simp only [State.performed, wiresAfter_append, List.append_assoc, List.length_append, Nat.add_assoc]

/-! One step. -/

/-- A micro-operation with no state action besides its write (R111, R112). -/
def MicroOp.Plain (op : MicroOp) : Prop :=
  op.testsCtrl = false ∧ op.zeroesBefore = false ∧ op.zeroesAfter = false

theorem commitOp_isPlain {n : Nat} {bank : Memory} {k : Nat} {op : MicroOp} (h : commitOp n bank k = some op) :
    op.Plain := by
  obtain ⟨htest, hbefore, hafter, -⟩ := commitOp_plain h
  exact ⟨htest, hbefore, hafter⟩

theorem State.rstAsserted_of_noReset {s : State} (h : s.noReset = true) : s.rstAsserted = false := by
  by_contra hr
  obtain ⟨avail, rest, hhost⟩ := State.rstAsserted_eq_true.1 (Bool.not_eq_false _ ▸ hr)
  simp [State.noReset, hhost] at h

theorem State.noReset_popHost {s : State} (h : s.noReset = true) : s.popHost.noReset = true := by
  unfold State.noReset at h ⊢
  rw [List.all_eq_true] at h ⊢
  exact fun m hm => h m (List.mem_of_mem_tail hm)

theorem State.noReset_hostWaits {s : State} (h : s.noReset = true) : s.hostWaits.noReset = true := by
  unfold State.hostWaits
  split
  · exact h
  · exact State.noReset_popHost h

/-- The end of the running sequence, if its position has reached its length (R112). -/
def State.settle (s : State) : State := if s.upc = s.seqLen then s.finish else s

theorem State.settle_of_lt {s : State} (h : s.upc < s.seqLen) : s.settle = s := if_neg (Nat.ne_of_lt h)

theorem State.settle_of_eq {s : State} (h : s.upc = s.seqLen) : s.settle = s.finish := if_pos h

/-- After a plain write the sequence stands at the next position, or has ended there. -/
theorem State.afterWrite_eq_performed {s : State} {op : MicroOp} (hop : op.Plain) :
    s.afterWrite op = (s.performed [op.event] s.clearRsp.hostWaits.host).settle := by
  obtain ⟨-, hbefore, hafter⟩ := hop
  have hpin : s.askedOracle.pinErr = s.pinErrAfter 1 := by
    rw [State.askedOracle_pinErr, State.pinErrAfter, List.drop_one]
  have hadvance (u : State) : u.advance = { u with upc := u.upc + 1 }.settle := rfl
  rw [State.afterWrite, hadvance, State.performed, List.length_singleton, ← hpin, State.hostWaits_eq, State.written,
    hbefore, hafter]
  rfl

theorem step_performs {s : State} {op : MicroOp} (hc : s.cfg.wf = true) (hm : s.mode = .init ∨ s.mode = .busy)
    (hhost : s.noReset = true) (hw : s.writeFails = false) (hop : s.microOp = some op) (hplain : op.Plain) :
    ∃ host, (s.performed [op.event] host).noReset = true ∧ step s = .next (s.performed [op.event] host).settle := by
  have htest : op.testsCtrl = true → s.cfg.ctrlAvail = true := fun ht => by simp [hplain.1] at ht
  refine ⟨s.clearRsp.hostWaits.host, State.noReset_hostWaits (s := s.clearRsp) hhost, ?_⟩
  rw [step_afterWrite hc (State.rstAsserted_of_noReset hhost) hm hop htest hw, State.afterWrite_eq_performed hplain]

/-! Many steps. -/

theorem run_add {s t : State} {k : Nat} (h : Host.Core.run core k s = .next t) (j : Nat) :
    Host.Core.run core (k + j) s = Host.Core.run core j t := by
  induction k generalizing s with
  | zero =>
    cases h
    rw [Nat.zero_add]
  | succ k ih =>
    rw [Nat.add_right_comm]
    simp only [Host.Core.run] at h ⊢
    split at h
    · exact ih h
    · cases h
    · cases h

/-- The writes of the running sequence at the next `k` positions. -/
def State.seqEvents (s : State) (k : Nat) : List Event :=
  (List.range' s.upc k).filterMap fun i => { s with upc := i }.microOp.map MicroOp.event

/-- At each of the next `k` positions of the running sequence stands a micro-operation without a state action. -/
def State.PlainFor (s : State) (k : Nat) : Prop :=
  ∀ i < k, ∃ op, { s with upc := s.upc + i }.microOp = some op ∧ op.Plain

theorem State.PlainFor.shorter {s : State} {k : Nat} (h : s.PlainFor (k + 1)) : s.PlainFor k := fun i hi =>
  h i (Nat.lt_succ_of_lt hi)

theorem State.seqEvents_succ {s : State} {k : Nat} {op : MicroOp}
    (hop : { s with upc := s.upc + k }.microOp = some op) : s.seqEvents (k + 1) = s.seqEvents k ++ [op.event] := by
  rw [State.seqEvents, List.range'_concat, List.filterMap_append, Nat.one_mul, List.filterMap_cons, hop]
  rfl

theorem State.seqEvents_length {s : State} {k : Nat} (h : s.PlainFor k) : (s.seqEvents k).length = k := by
  induction k with
  | zero => rfl
  | succ k ih =>
    obtain ⟨op, hop, -⟩ := h k (Nat.lt_succ_self k)
    rw [State.seqEvents_succ hop, List.length_append, ih h.shorter, List.length_singleton]

theorem State.performed_upc {s : State} {k : Nat} (h : s.PlainFor k) (host : List HostMove) :
    (s.performed (s.seqEvents k) host).upc = s.upc + k := congrArg (s.upc + ·) (State.seqEvents_length h)

theorem State.writesSucceed.mono {s : State} {j k : Nat} (h : s.writesSucceed k) (hjk : j ≤ k) : s.writesSucceed j :=
  fun hp b hb => h hp b (List.take_subset_take_left _ hjk hb)

/-- After `k` writes the oracle has `k` answers less to give. -/
theorem State.writesSucceed.performed {s : State} {evs : List Event} {k : Nat} (h : s.writesSucceed (evs.length + k))
    (host : List HostMove) : (s.performed evs host).writesSucceed k := by
  intro hp b hb
  have hpin : (s.performed evs host).pinErr = s.pinErr.drop evs.length := if_pos hp
  rw [hpin] at hb
  refine h hp b ?_
  rw [List.take_add]
  exact List.mem_append_right _ hb

section
variable {s : State} {k : Nat} (hc : s.cfg.wf = true) (hm : s.mode = .init ∨ s.mode = .busy)
include hc hm

/-- One step more: the write of position `k` from here, and the end of the sequence if that was its last. -/
theorem run_performs_succ {host : List HostMove}
    (hrun : Host.Core.run core k s = .next (s.performed (s.seqEvents k) host))
    (hhost : (s.performed (s.seqEvents k) host).noReset = true) (hw : s.writesSucceed (k + 1))
    (hplain : s.PlainFor (k + 1)) :
    ∃ host', (s.performed (s.seqEvents (k + 1)) host').noReset = true ∧
      Host.Core.run core (k + 1) s = .next (s.performed (s.seqEvents (k + 1)) host').settle := by
  have hlen := State.seqEvents_length hplain.shorter
  obtain ⟨op, hop, hopPlain⟩ := hplain k (Nat.lt_succ_self k)
  have hmicro : (s.performed (s.seqEvents k) host).microOp = some op := by
    rw [State.performed, hlen]
    exact hop
  have hnext : (s.performed (s.seqEvents k) host).writesSucceed 1 :=
    State.writesSucceed.performed (by rwa [hlen]) host
  obtain ⟨host', hnoReset, hstep⟩ :=
    step_performs (s := s.performed (s.seqEvents k) host) hc hm hhost hnext.writeFails hmicro hopPlain
  rw [State.performed_performed, ← State.seqEvents_succ hop] at hnoReset hstep
  exact ⟨host', hnoReset, (run_add hrun 1).trans (run_succ hstep 0)⟩

variable (hrsp : s.rsp = none) (hhost : s.noReset = true)
include hrsp hhost

/-- Steps of a running sequence that do not reach its end make the writes of the positions they pass (R112). -/
theorem run_performs (hw : s.writesSucceed k) (hplain : s.PlainFor k) (hlt : s.upc + k < s.seqLen) :
    ∃ host, (s.performed (s.seqEvents k) host).noReset = true ∧
      Host.Core.run core k s = .next (s.performed (s.seqEvents k) host) := by
  induction k with
  | zero =>
    have hnil : s.performed (s.seqEvents 0) s.host = s := State.performed_nil hrsp
    exact ⟨s.host, by rw [hnil, hhost], by rw [hnil]; rfl⟩
  | succ k ih =>
    obtain ⟨host, hnoReset, hrun⟩ := ih (hw.mono (Nat.le_succ k)) hplain.shorter (by omega)
    obtain ⟨host', hnoReset', hmore⟩ := run_performs_succ hc hm hrun hnoReset hw hplain
    exact ⟨host', hnoReset', by rw [hmore, State.settle_of_lt (State.performed_upc hplain host' ▸ hlt)]⟩

/-- The steps that reach the end of a running sequence make all the writes it has left (R112). -/
theorem run_finishes (hw : s.writesSucceed (k + 1)) (hplain : s.PlainFor (k + 1)) (hend : s.upc + (k + 1) = s.seqLen) :
    ∃ host, Host.Core.run core (k + 1) s = .next (s.performed (s.seqEvents (k + 1)) host).finish := by
  obtain ⟨host, hnoReset, hrun⟩ := run_performs hc hm hrsp hhost (hw.mono (Nat.le_succ k)) hplain.shorter (by omega)
  obtain ⟨host', -, hlast⟩ := run_performs_succ hc hm hrun hnoReset hw hplain
  exact ⟨host', by rw [hlast, State.settle_of_eq ((State.performed_upc hplain host').trans hend)]⟩

end

end Sys2Proof.Machine
end

section
/-! SUPPORT. A COMMIT presented in `IDLE` (41_commit R110, R112, R114) and what it makes of the chips (R116,
45_chain_reference R157). -/

namespace Sys2Proof.Machine

/-! The groups of CommitSeq on the lines and the chips. -/

/-- The writes of `m` groups, group `g` sending `bits g` (R111). -/
def groupWrites (bits : Nat → Bool) (m : Nat) : List Event := (List.range m).flatMap fun g => bitWrites (bits g)

theorem groupWrites_succ (bits : Nat → Bool) (m : Nat) :
    groupWrites bits (m + 1) = groupWrites bits m ++ bitWrites (bits m) := by
  rw [groupWrites, List.range_succ, List.flatMap_append, List.flatMap_singleton, groupWrites]

/-- The bit that group `g` of a COMMIT sends (R111, R52). -/
def sentBit (n : Nat) (bank : Memory) (g : Nat) : Bool := bank.bitRead (sentIndex n g)

/-- The writes of COMMIT: `STCP` Low, the groups, `STCP` High. -/
theorem commitWrites_eq_groupWrites (n : Nat) (bank : Memory) :
    commitWrites n bank = .w .stcp .l :: groupWrites (sentBit n bank) (8 * n) ++ [.w .stcp .h] := by
  rw [← commitEvents_eq_commitWrites, commitEvents_eq]
  rfl

/-- The bits of a COMMIT, the last one sent first, are those of the bank upwards (R52). -/
theorem map_sentBit (n : Nat) (bank : Memory) :
    (List.range (8 * n)).reverse.map (sentBit n bank) = bankPattern n bank := by
  have hindex : (List.range (8 * n)).reverse.map (sentIndex n) = List.range (8 * n) := by
    rw [List.map_reverse]
    exact (congrArg List.reverse (range_reverse_eq_map (8 * n))).symm.trans (List.reverse_reverse _)
  rw [bankPattern, ← congrArg (List.map bank.bitRead) hindex, List.map_map]
  rfl

section
variable (cfg : Cfg) (wires : Lines × Chain)

theorem wiresAfter_groupWrites_lines (bits : Nat → Bool) (m : Nat) :
    (wiresAfter cfg wires (groupWrites bits m)).1 =
      if m = 0 then wires.1 else { wires.1 with shcp := .h, ds := Level.ofBool (bits (m - 1)) } := by
  induction m with
  | zero => rfl
  | succ m ih =>
    have hgroup (p : Lines × Chain) (d : Bool) :
        (wiresAfter cfg p (bitWrites d)).1 = { p.1 with shcp := .h, ds := Level.ofBool d } := rfl
    rw [groupWrites_succ, wiresAfter_append, hgroup, ih, if_neg (Nat.succ_ne_zero m)]
    split_ifs <;> rfl

/-- The groups leave `STCP` and what the chips see of `MR`. -/
theorem wiresAfter_groupWrites_frame (bits : Nat → Bool) (m : Nat) :
    (wiresAfter cfg wires (groupWrites bits m)).1.stcp = wires.1.stcp ∧
      eff cfg (wiresAfter cfg wires (groupWrites bits m)).1 .mr = eff cfg wires.1 .mr := by
  rw [wiresAfter_groupWrites_lines]
  split_ifs <;> exact ⟨rfl, rfl⟩

/-- `SHCP` Low is no edge (R152). -/
theorem act_clockLow : (Event.w .shcp .l).act cfg wires = (wires.1.set .shcp .l, wires.2) := by
  simp [Event.act, Chain.react, eff, Level.pulledDown]

/-- `SHCP` High after Low shifts the Data level in, while Master-Clear is High (R153). -/
theorem act_clockHigh (hmr : eff cfg wires.1 .mr = .h) (hshcp : wires.1.shcp = .l) {d : Bool}
    (hds : wires.1.ds = Level.ofBool d) :
    (Event.w .shcp .h).act cfg wires = (wires.1.set .shcp .h, wires.2.shift d) := by
  have hmr' : eff cfg (wires.1.set .shcp .h) .mr = .h := hmr
  have hdata : decide (eff cfg (wires.1.set .shcp .h) .ds = .h) = d := by
    show decide (wires.1.ds.pulledDown = .h) = d
    rw [hds]
    cases d <;> rfl
  have hrising : eff cfg wires.1 .shcp = .l ∧ eff cfg (wires.1.set .shcp .h) .shcp = .h := by
    simp [eff, hshcp, Level.pulledDown]
  simp only [Event.act, Chain.react, if_pos hrising, hmr', hdata]
  rfl

/-- A group shifts its bit in once, whatever the level of `SHCP` before it, while Master-Clear is High (R153). -/
theorem wiresAfter_bitWrites_chain (hmr : eff cfg wires.1 .mr = .h) (d : Bool) :
    (wiresAfter cfg wires (bitWrites d)).2 = wires.2.shift d := by
  have hdata (p : Lines × Chain) (v : Level) : (Event.w .ds v).act cfg p = (p.1.set .ds v, p.2) := rfl
  rw [bitWrites, wiresAfter_cons, act_clockLow, wiresAfter_cons, hdata, wiresAfter_cons,
    act_clockHigh cfg (((wires.1.set .shcp .l).set .ds (Level.ofBool d)), wires.2) hmr rfl rfl]
  rfl

/-- The groups shift their bits in, the last one nearest the host (R153, R157). -/
theorem wiresAfter_groupWrites_chain (hmr : eff cfg wires.1 .mr = .h) (bits : Nat → Bool) (m : Nat) :
    (wiresAfter cfg wires (groupWrites bits m)).2 =
      { wires.2 with sh := ((List.range m).reverse.map bits ++ wires.2.sh).take wires.2.sh.length } := by
  induction m with
  | zero => simp [groupWrites, wiresAfter]
  | succ m ih =>
    have hmr' := (wiresAfter_groupWrites_frame cfg wires bits m).2.trans hmr
    rw [groupWrites_succ, wiresAfter_append, wiresAfter_bitWrites_chain _ _ hmr', ih, Chain.shift]
    cases hlen : wires.2.sh.length with
    | zero => simp
    | succ len => simp [List.range_succ, List.take_take, hlen]

/-- The lines after a COMMIT (R114). -/
theorem wiresAfter_commitWrites_lines {n : Nat} (hn : 1 ≤ n) (bank : Memory) :
    (wiresAfter cfg wires (commitWrites n bank)).1 =
      { wires.1 with stcp := .h, shcp := .h, ds := Level.ofBool (bank.bitRead 0) } := by
  have hlast (p : Lines × Chain) : (wiresAfter cfg p [.w .stcp .h]).1 = { p.1 with stcp := .h } := rfl
  have hbit : sentIndex n (8 * n - 1) = 0 := Nat.sub_self _
  rw [commitWrites_eq_groupWrites, wiresAfter_append, hlast, wiresAfter_cons, wiresAfter_groupWrites_lines,
    if_neg (by omega), sentBit, hbit]
  rfl

/-- `STCP` Low is no edge (R152). -/
theorem act_latchLow : (Event.w .stcp .l).act cfg wires = (wires.1.set .stcp .l, wires.2) := by
  simp [Event.act, Chain.react, eff, Level.pulledDown]

/-- `STCP` High after Low latches (R156). -/
theorem act_latchHigh (hstcp : wires.1.stcp = .l) :
    (Event.w .stcp .h).act cfg wires = (wires.1.set .stcp .h, wires.2.latch) := by
  simp [Event.act, Chain.react, eff, Level.pulledDown, hstcp]

/-- Before its last write a COMMIT has shifted the bank in; the storage stage is as it was (R116). -/
theorem wiresAfter_commit_shifts {n : Nat} (bank : Memory) (hmr : eff cfg wires.1 .mr = .h)
    (hlen : wires.2.sh.length = 8 * n) :
    (wiresAfter cfg wires (.w .stcp .l :: groupWrites (sentBit n bank) (8 * n))).2 =
      ⟨bankPattern n bank, wires.2.q⟩ := by
  have hmr' : eff cfg (wires.1.set .stcp .l) .mr = .h := hmr
  have hpattern : (bankPattern n bank).length = 8 * n := by simp [bankPattern]
  rw [wiresAfter_cons, act_latchLow, wiresAfter_groupWrites_chain _ (wires.1.set .stcp .l, wires.2) hmr',
    map_sentBit, hlen, List.take_left' hpattern]

/-- Its last write latches the bank (R116, R157). -/
theorem wiresAfter_commit_latches {n : Nat} (bank : Memory) (hmr : eff cfg wires.1 .mr = .h)
    (hlen : wires.2.sh.length = 8 * n) :
    (wiresAfter cfg wires (commitWrites n bank)).2 = ⟨bankPattern n bank, bankPattern n bank⟩ := by
  have hstcp : (wiresAfter cfg wires (.w .stcp .l :: groupWrites (sentBit n bank) (8 * n))).1.stcp = .l := by
    rw [wiresAfter_cons, act_latchLow]
    exact (wiresAfter_groupWrites_frame _ _ _ _).1
  rw [commitWrites_eq_groupWrites, wiresAfter_append, wiresAfter_cons, act_latchHigh _ _ hstcp,
    wiresAfter_commit_shifts cfg wires bank hmr hlen]
  rfl

end

/-! The run of a COMMIT. -/

/-- The state after the acceptance of a COMMIT, with the host's moves `rest` left (R112). -/
def State.committing (s : State) (rest : List HostMove) : State :=
  { s with host := rest, rsp := none, mode := .busy, cur := .commit, upc := 0 }

theorem step_commit {s : State} {rest : List HostMove} (hc : s.cfg.wf = true) (hm : s.mode = .idle)
    (hp : s.presents 0x5000 rest) : step s = .next (s.committing rest) :=
  (stepRunsDecodedCommand s 0x5000 .commit rest hc hm hp rfl).trans
    (commitAccepted { s with host := rest, rsp := none } hc hm)

theorem State.committing_noReset {s : State} {w : Word} {rest : List HostMove} (hp : s.presents w rest)
    (hhost : s.noReset = true) : (s.committing rest).noReset = true := by
  obtain ⟨-, -, htail⟩ := hp.host_eq
  rw [← htail]
  exact State.noReset_popHost hhost

theorem State.committing_plainFor (s : State) (rest : List HostMove) :
    (s.committing rest).PlainFor (24 * s.cfg.n + 2) := by
  intro i hi
  have hlt : 0 + i < commitLen s.cfg.n := by rwa [Nat.zero_add]
  obtain ⟨op, hop⟩ := Option.isSome_iff_exists.1 ((commitOp_isSome (bank := s.bits)).2 hlt)
  exact ⟨op, hop, commitOp_isPlain hop⟩

/-- The positions of a COMMIT before its last: `STCP` Low and the groups. -/
theorem State.committing_seqEvents (s : State) (rest : List HostMove) :
    (s.committing rest).seqEvents (24 * s.cfg.n + 1) =
      .w .stcp .l :: groupWrites (sentBit s.cfg.n s.bits) (8 * s.cfg.n) := by
  have hgroups := commitOp_groups s.cfg.n s.bits (le_refl (8 * s.cfg.n))
  rw [show 3 * (8 * s.cfg.n) + 1 = 24 * s.cfg.n + 1 from by ring, List.range_eq_range'] at hgroups
  exact hgroups

theorem State.committing_seqEvents_all (s : State) (rest : List HostMove) :
    (s.committing rest).seqEvents (24 * s.cfg.n + 2) = commitWrites s.cfg.n s.bits := by
  rw [← commitEvents_eq_commitWrites, commitEvents, List.range_eq_range']
  rfl

theorem commitWrites_length (n : Nat) (bank : Memory) : (commitWrites n bank).length = 24 * n + 2 := by
  rw [← commitEvents_eq_commitWrites]
  exact (commitWriteCounts n bank).1

section
variable {s : State} {rest : List HostMove} (hc : s.cfg.wf = true) (hw : s.writesSucceed (24 * s.cfg.n + 2))
  (hm : s.mode = .idle) (hp : s.presents 0x5000 rest) (hhost : s.noReset = true)
include hc hw hm hp hhost

/-- A presented COMMIT runs to before its last write. -/
theorem run_commit_shifts :
    ∃ host, Host.Core.run core (24 * s.cfg.n + 2) s = .next ((s.committing rest).performed
      (.w .stcp .l :: groupWrites (sentBit s.cfg.n s.bits) (8 * s.cfg.n)) host) := by
  have hrest := State.committing_noReset hp hhost
  have hw' : (s.committing rest).writesSucceed (24 * s.cfg.n + 1) :=
    State.writesSucceed.mono (s := s.committing rest) hw (by omega)
  obtain ⟨host, -, hrun⟩ := run_performs (s := s.committing rest) hc (.inr rfl) rfl hrest hw'
    (s.committing_plainFor rest).shorter (by show 0 + (24 * s.cfg.n + 1) < 24 * s.cfg.n + 2; omega)
  rw [State.committing_seqEvents] at hrun
  exact ⟨host, (run_succ (step_commit hc hm hp) _).trans hrun⟩

/-- A presented COMMIT runs to its end, where it is answered. -/
theorem run_commit :
    ∃ host, Host.Core.run core (24 * s.cfg.n + 3) s =
      .next ((s.committing rest).performed (commitWrites s.cfg.n s.bits) host).finish := by
  have hrest := State.committing_noReset hp hhost
  obtain ⟨host, hrun⟩ := run_finishes (s := s.committing rest) (k := 24 * s.cfg.n + 1) hc (.inr rfl) rfl hrest hw
    (s.committing_plainFor rest) (by show 0 + (24 * s.cfg.n + 1) + 1 = 24 * s.cfg.n + 2; omega)
  rw [State.committing_seqEvents_all] at hrun
  exact ⟨host, (run_succ (step_commit hc hm hp) _).trans hrun⟩

end

/-- Settles O30: the run of a presented COMMIT to its end, field by field. -/
theorem commitCompletes : Obligations.CommitCompletes := by
  intro s rest hc hw hm hp hhost
  obtain ⟨host, hrun⟩ := run_commit hc hw hm hp hhost
  have hlines := wiresAfter_commitWrites_lines s.cfg (s.lines, s.chain) ((cfg_wf_iff s.cfg).1 hc).1 s.bits
  have hpin := congrArg s.pinErrAfter (commitWrites_length s.cfg.n s.bits)
  refine ⟨_, hrun, rfl, ⟨rfl, rfl⟩, rfl, rfl, rfl, hlines, hpin, ?_⟩
  simp only [hm]
  rfl

/-- Bank and chips are coherent when the storage stage holds the bank (R58). -/
theorem State.coherent_of_bankPattern {s : State} (hq : s.chain.q = bankPattern s.cfg.n s.bits) : s.coherent := by
  unfold State.coherent
  rw [hq]
  refine ⟨by simp [bankPattern, Cfg.nbits], fun k hk => ?_⟩
  have hk' : k < 8 * s.cfg.n := hk
  simp [bankPattern, List.getD, hk']

/-- Settles O31: the bank has been shifted in before the last write of the run, and that write latches it. -/
theorem commitLatchesBank : Obligations.CommitLatchesBank := by
  intro s rest hc hw hm hp hhost hmr hlen
  obtain ⟨host, hshift⟩ := run_commit_shifts hc hw hm hp hhost
  obtain ⟨host', hlatch⟩ := run_commit hc hw hm hp hhost
  have hshifted : ((s.committing rest).performed (.w .stcp .l :: groupWrites (sentBit s.cfg.n s.bits) (8 * s.cfg.n))
      host).chain = ⟨bankPattern s.cfg.n s.bits, s.chain.q⟩ :=
    wiresAfter_commit_shifts s.cfg (s.lines, s.chain) s.bits hmr hlen
  have hlatched : ((s.committing rest).performed (commitWrites s.cfg.n s.bits) host').finish.chain =
      ⟨bankPattern s.cfg.n s.bits, bankPattern s.cfg.n s.bits⟩ :=
    wiresAfter_commit_latches s.cfg (s.lines, s.chain) s.bits hmr hlen
  have hkept := congrArg Chain.q hshifted
  have hq := congrArg Chain.q hlatched
  exact ⟨⟨_, hshift, congrArg Chain.sh hshifted, hkept⟩, _, hlatch, congrArg Chain.sh hlatched, hq,
    State.coherent_of_bankPattern hq⟩

end Sys2Proof.Machine
end

section
/-! SUPPORT. SETOE, MRESET and STATUS accepted in `IDLE` (42_oe_mr_status R130 to R136): the rows of SETOE, the bits of
the STATUS word. -/

namespace Sys2Proof.Machine

/-! SETOE (R130, R131). -/

/-- The line `OE` has been written active-Low for the value `v`, and `v` cached (R131); the chips do not react to that
line (R152). -/
def State.oeWritten (s : State) (v : Bool) : State :=
  { s with
    outputEnabled := v
    lines := { s.lines with oe := Level.ofBool !v }
    trace := s.trace ++ [.w .oe (Level.ofBool !v)]
    pinErr := s.askedOracle.pinErr }

section
variable {s : State} (hc : s.cfg.wf = true) (hm : s.mode = .idle)
include hc hm

/-- The value `OE` already has: no write (R130). -/
theorem exec_setoe_same {v : Bool} (hv : v = s.outputEnabled) :
    exec (.setoe v) s = .next (s.respond (encode (.setoe v)) .ok 0) := by
  rw [exec_setoe, State.accept_idle _ hc hm, if_pos hv]

/-- Another value on an unbound line: a status (R130, R174). -/
theorem exec_setoe_unbound {v : Bool} (hv : v ≠ s.outputEnabled) (hb : s.cfg.oeBound = false) :
    exec (.setoe v) s = .next (s.respond (encode (.setoe v)) .unavail 0) := by
  rw [exec_setoe, State.accept_idle _ hc hm, if_neg hv, if_neg (by simp [hb])]

/-- Another value on a bound line, when the write does not fail (R130, R131). -/
theorem exec_setoe_writes {v : Bool} (hv : v ≠ s.outputEnabled) (hb : s.cfg.oeBound = true)
    (hw : s.writeFails = false) :
    exec (.setoe v) s = .next ((s.oeWritten v).respond (encode (.setoe v)) .ok 0) := by
  rw [exec_setoe, State.accept_idle _ hc hm, if_neg hv, if_pos hb, if_neg (by simp [hw])]
  rfl

end

/-- Settles O33: the two writing rows, then the three rows without a write. -/
theorem setoeTransitionTable : Obligations.SetoeTransitionTable := by
  intro s hc hm
  refine ⟨fun hb hen hw => ?_, fun hb hen hw => ?_, fun hen => ?_, fun _ hen => ?_, fun hb hen => ?_⟩
  · exact ⟨_, exec_setoe_writes hc hm (by simp [hen]) hb hw, ⟨rfl, rfl⟩, rfl⟩
  · exact ⟨_, exec_setoe_writes hc hm (by simp [hen]) hb hw, ⟨rfl, rfl⟩, rfl⟩
  · exact ⟨_, exec_setoe_same hc hm hen.symm, ⟨rfl, rfl⟩, rfl⟩
  · exact ⟨_, exec_setoe_same hc hm hen.symm, ⟨rfl, rfl⟩, rfl⟩
  · exact ⟨_, exec_setoe_unbound hc hm (by simp [hen]) hb, ⟨rfl, rfl⟩, rfl⟩

/-- Settles O34: whether SETOE only answers `OK`, fails to write, writes, answers `UNAVAIL` or is not accepted, no line but
`OE` is driven. -/
theorem setoeFrame : Obligations.SetoeFrame := by
  intro s t v h
  rw [exec_setoe] at h
  have hdriven (level : Level) (x : Line) (hx : x ≠ .oe) : (s.lines.set .oe level).get x = s.lines.get x :=
    Lines.get_set_other s.lines level hx
  obtain ⟨-, ⟨hm, rfl⟩ | ⟨-, rfl⟩⟩ := State.accept_cases h
  · split_ifs
    · exact ⟨rfl, rfl, fun _ => rfl, fun _ _ => rfl, rfl, rfl, fun _ => ⟨rfl, rfl⟩, rfl, rfl⟩
    · exact ⟨rfl, rfl, fun _ => rfl, hdriven _, rfl, hm.symm, fun ⟨hcur, hupc⟩ => ⟨hcur.symm, hupc.symm⟩, rfl, rfl⟩
    · exact ⟨rfl, rfl, fun _ => rfl, hdriven _, rfl, rfl, fun _ => ⟨rfl, rfl⟩, rfl, rfl⟩
    · exact ⟨rfl, rfl, fun _ => rfl, fun _ _ => rfl, rfl, rfl, fun _ => ⟨rfl, rfl⟩, rfl, rfl⟩
  · exact ⟨rfl, rfl, fun _ => rfl, fun _ _ => rfl, rfl, rfl, fun _ => ⟨rfl, rfl⟩, rfl, rfl⟩

/-- Settles O36: after the first SETOE the cached state is `v`, so the second finds the same value. -/
theorem setoeWriteElision : Obligations.SetoeWriteElision := by
  intro s v hc hm hb hw
  by_cases hv : v = s.outputEnabled
  · refine ⟨_, _, exec_setoe_same hc hm hv, exec_setoe_same (s := s.respond _ _ _) hc hm hv, ?_, hv.symm⟩
    rw [if_pos hv, List.append_nil]
    rfl
  · refine ⟨_, _, exec_setoe_writes hc hm hv hb (hw hv),
      exec_setoe_same (s := (s.oeWritten v).respond _ _ _) (v := v) hc hm rfl, ?_, rfl⟩
    rw [if_neg hv]
    rfl

/-! MRESET (R133, R134). -/

/-- Settles O38: MRESET on an unbound line is one acceptance that only answers. -/
theorem mresetUnavailable : Obligations.MresetUnavailable := by
  intro s hc hm hb
  refine ⟨s.respond (encode .mreset) .unavail 0, ?_, ⟨rfl, rfl⟩, rfl⟩
  rw [exec_mreset, State.accept_idle _ hc hm, if_neg (by simp [hb])]

/-- Settles O39: MRESET on a bound line is one acceptance that starts the sequence. -/
theorem mresetAccepted : Obligations.MresetAccepted := by
  intro s hc hm hb
  rw [exec_mreset, State.accept_idle _ hc hm, if_pos hb, State.startSequence]

/-! STATUS (R30, R136). -/

/-- The low byte of the STATUS word (R30). -/
def State.statusFlags (s : State) : Nat :=
  s.pf.toNat * 2 ^ 4 + s.perr.toNat * 2 ^ 3 + s.cfg.mrBound.toNat * 2 ^ 2 + s.cfg.oeBound.toNat * 2 +
    s.outputEnabled.toNat

theorem State.statusFlags_lt (s : State) : s.statusFlags < 2 ^ 8 := by
  have := Bool.toNat_le s.pf
  have := Bool.toNat_le s.perr
  have := Bool.toNat_le s.cfg.mrBound
  have := Bool.toNat_le s.cfg.oeBound
  have := Bool.toNat_le s.outputEnabled
  unfold State.statusFlags
  omega

/-- Five bits weighed by powers of two are the bits of their sum; above them are zeros. -/
theorem testBit_sum_of_bits : ∀ b₄ b₃ b₂ b₁ b₀ : Bool,
    let x := b₄.toNat * 2 ^ 4 + b₃.toNat * 2 ^ 3 + b₂.toNat * 2 ^ 2 + b₁.toNat * 2 + b₀.toNat
    x.testBit 0 = b₀ ∧ x.testBit 1 = b₁ ∧ x.testBit 2 = b₂ ∧ x.testBit 3 = b₃ ∧ x.testBit 4 = b₄ ∧
      x.testBit 5 = false ∧ x.testBit 6 = false ∧ x.testBit 7 = false := by
  decide

/-- The STATUS word is `N - 1` above the flags. -/
theorem State.statusWord_eq (s : State) : s.statusWord = BitVec.ofNat 16 (2 ^ 8 * (s.cfg.n - 1) + s.statusFlags) := by
  rw [State.statusWord, State.statusFlags, Nat.mul_comm]
  simp only [Nat.add_assoc]

theorem State.getLsbD_statusWord (s : State) {j : Nat} (hj : j < 8) :
    s.statusWord.getLsbD j = s.statusFlags.testBit j := by
  rw [State.statusWord_eq, BitVec.getLsbD_ofNat, Nat.testBit_two_pow_mul_add _ s.statusFlags_lt, if_pos hj,
    decide_eq_true (by omega : j < 16), Bool.true_and]

theorem State.statusWord_upper {s : State} (hn : s.cfg.n ≤ 256) :
    (s.statusWord.extractLsb' 8 8).toNat = s.cfg.n - 1 := by
  have := s.statusFlags_lt
  rw [State.statusWord_eq, BitVec.extractLsb'_toNat, BitVec.toNat_ofNat, Nat.shiftRight_eq_div_pow]
  omega

/-- Settles O42: STATUS only answers, and the word's low byte is the flags, its upper byte `N - 1`. -/
theorem statusAnswersStatusWord : Obligations.StatusAnswersStatusWord := by
  intro s hc hm
  obtain ⟨-, hn, -⟩ := (cfg_wf_iff s.cfg).1 hc
  obtain ⟨hen, hoe, hmr, hperr, hpf, h5, h6, h7⟩ :=
    testBit_sum_of_bits s.pf s.perr s.cfg.mrBound s.cfg.oeBound s.outputEnabled
  have hbit {j : Nat} (hj : j < 8) {b : Bool} (h : s.statusFlags.testBit j = b) : s.statusWord.getLsbD j = b :=
    (s.getLsbD_statusWord hj).trans h
  refine ⟨s.respond (encode .status) .ok s.statusWord, s.statusWord, ?_, ⟨rfl, rfl⟩, hbit (by decide) hen,
    hbit (by decide) hoe, hbit (by decide) hmr, hbit (by decide) hperr, hbit (by decide) hpf, hbit (by decide) h5,
    hbit (by decide) h6, hbit (by decide) h7, State.statusWord_upper hn, rfl⟩
  rw [exec_status, State.accept_idle _ hc hm]

end Sys2Proof.Machine
end

section
/-! SUPPORT. An MRESET presented in `IDLE` on a bound line (42_oe_mr_status R133, R134) and what it makes of the chips
(45_chain_reference R154). -/

namespace Sys2Proof.Machine

/-! MresetSeq on the lines and the chips. -/

/-- Clearing a cleared shift stage changes nothing (R154). -/
theorem Chain.clear_clear (c : Chain) : c.clear.clear = c.clear := by simp [Chain.clear]

section
variable (cfg : Cfg) {wires : Lines × Chain}

/-- `SHCP` High after Low clears the shift stage while Master-Clear is Low (R154). -/
theorem act_clockHigh_masterClear (hmr : eff cfg wires.1 .mr = .l) (hshcp : wires.1.shcp = .l) :
    (Event.w .shcp .h).act cfg wires = (wires.1.set .shcp .h, wires.2.clear) := by
  have hmr' : eff cfg (wires.1.set .shcp .h) .mr = .l := hmr
  have hrising : eff cfg wires.1 .shcp = .l ∧ eff cfg (wires.1.set .shcp .h) .shcp = .h := by
    simp [eff, hshcp, Level.pulledDown]
  simp only [Event.act, Chain.react, if_pos hrising, if_pos hmr']

/-- A group sent while Master-Clear is Low clears the shift stage instead of shifting (R154). -/
theorem wiresAfter_bitWrites_masterClear (hmr : eff cfg wires.1 .mr = .l) (d : Bool) :
    (wiresAfter cfg wires (bitWrites d)).2 = wires.2.clear := by
  have hdata (p : Lines × Chain) (v : Level) : (Event.w .ds v).act cfg p = (p.1.set .ds v, p.2) := rfl
  rw [bitWrites, wiresAfter_cons, act_clockLow, wiresAfter_cons, hdata, wiresAfter_cons,
    act_clockHigh_masterClear cfg (wires := (((wires.1.set .shcp .l).set .ds (Level.ofBool d)), wires.2)) hmr rfl]
  rfl

/-- While Master-Clear is Low a zero shift stage stays zero, whatever is sent (R154). -/
theorem wiresAfter_groupWrites_masterClear (hmr : eff cfg wires.1 .mr = .l) (hzero : wires.2.clear = wires.2)
    (bits : Nat → Bool) (m : Nat) : (wiresAfter cfg wires (groupWrites bits m)).2 = wires.2 := by
  induction m with
  | zero => rfl
  | succ m ih =>
    have hmr' := (wiresAfter_groupWrites_frame cfg wires bits m).2.trans hmr
    rw [groupWrites_succ, wiresAfter_append, wiresAfter_bitWrites_masterClear cfg hmr', ih, hzero]

/-- A COMMIT while Master-Clear is Low latches the zero shift stage, whatever the bank (R154, R156). -/
theorem wiresAfter_commit_masterClear (hmr : eff cfg wires.1 .mr = .l) (hzero : wires.2.clear = wires.2)
    (n : Nat) (bank : Memory) : (wiresAfter cfg wires (commitWrites n bank)).2 = wires.2.latch := by
  have hmr' : eff cfg (wires.1.set .stcp .l) .mr = .l := hmr
  have hstcp : (wiresAfter cfg wires (.w .stcp .l :: groupWrites (sentBit n bank) (8 * n))).1.stcp = .l := by
    rw [wiresAfter_cons, act_latchLow]
    exact (wiresAfter_groupWrites_frame _ _ _ _).1
  rw [commitWrites_eq_groupWrites, wiresAfter_append, wiresAfter_cons, act_latchHigh _ _ hstcp, wiresAfter_cons,
    act_latchLow]
  exact congrArg Chain.latch
    (wiresAfter_groupWrites_masterClear cfg (wires := (wires.1.set .stcp .l, wires.2)) hmr' hzero _ _)

/-- `MR` Low clears the shift stage (R154). -/
theorem act_masterClearLow (hb : cfg.mrBound = true) :
    (Event.w .mr .l).act cfg wires = (wires.1.set .mr .l, wires.2.clear) := by
  simp [Event.act, Chain.react, eff, hb, Level.pulledUp]

/-- `MR` High does nothing to the chips (R154). -/
theorem act_masterClearHigh :
    (Event.w .mr .h).act cfg wires = (wires.1.set .mr .h, wires.2) := by
  simp [Event.act, Chain.react, eff, Level.pulledUp]

theorem mresetWrites_eq (n : Nat) : mresetWrites n = .w .mr .l :: (commitWrites n [] ++ [.w .mr .h]) := rfl

/-- The lines after an MRESET (R114, R134). -/
theorem wiresAfter_mresetWrites_lines {n : Nat} (hn : 1 ≤ n) :
    (wiresAfter cfg wires (mresetWrites n)).1 = { wires.1 with mr := .h, stcp := .h, shcp := .h, ds := .l } := by
  rw [mresetWrites_eq, wiresAfter_cons, wiresAfter_append, wiresAfter_cons, act_masterClearHigh]
  show ((wiresAfter cfg ((Event.w .mr .l).act cfg wires) (commitWrites n [])).1.set .mr .h) = _
  rw [wiresAfter_commitWrites_lines cfg _ hn]
  rfl

/-- An MRESET clears both stages, whatever they and the lines were (R133, R154). -/
theorem wiresAfter_mresetWrites_chain (hb : cfg.mrBound = true) (n : Nat) :
    (wiresAfter cfg wires (mresetWrites n)).2 = wires.2.clear.latch := by
  have hmr : eff cfg (wires.1.set .mr .l) .mr = .l := by simp [eff, hb, Level.pulledUp]
  rw [mresetWrites_eq, wiresAfter_cons, act_masterClearLow cfg hb, wiresAfter_append, wiresAfter_cons,
    act_masterClearHigh]
  exact wiresAfter_commit_masterClear cfg (wires := (wires.1.set .mr .l, wires.2.clear)) hmr
    wires.2.clear_clear n []

end

/-! The run of an MRESET. -/

/-- The state after the acceptance of an MRESET, with the host's moves `rest` left (R134). -/
def State.mresetting (s : State) (rest : List HostMove) : State :=
  { s with host := rest, rsp := none, mode := .busy, cur := .mreset, upc := 0 }

/-- A state with the bank zeroed (R134). -/
def State.bankZeroed (s : State) : State := { s with bits := [] }

theorem step_mreset {s : State} {rest : List HostMove} (hc : s.cfg.wf = true) (hm : s.mode = .idle)
    (hb : s.cfg.mrBound = true) (hp : s.presents 0x7000 rest) : step s = .next (s.mresetting rest) :=
  (stepRunsDecodedCommand s 0x7000 .mreset rest hc hm hp rfl).trans
    (mresetAccepted { s with host := rest, rsp := none } hc hm hb)

/-- A running MRESET after its first write: the bank zeroed, `MR` Low, at the first position of the COMMIT in it; with the
host's moves `host` left (R134). -/
def State.mresetCleared (s : State) (rest host : List HostMove) : State :=
  (s.mresetting rest).bankZeroed.performed [.w .mr .l] host

theorem State.hostWaits_bankZeroed (s : State) : s.bankZeroed.hostWaits = s.hostWaits.bankZeroed := by
  unfold State.hostWaits State.bankZeroed
  dsimp only
  split <;> rfl

/-- A micro-operation that zeroes the bank after its write acts like its write alone on the zeroed bank (R134). -/
theorem State.afterWrite_zeroesAfter (s : State) (x : Line) (high : Bool) :
    s.afterWrite { line := x, high := high, zeroesAfter := true } =
      s.bankZeroed.afterWrite { line := x, high := high } := by
  unfold State.afterWrite
  rw [show s.bankZeroed.clearRsp = s.clearRsp.bankZeroed from rfl, State.hostWaits_bankZeroed]
  rfl

/-- The first step of a running MRESET: `MR` Low, and the bank zeroed (R134). -/
theorem step_mreset_first {s : State} {rest : List HostMove} (hc : s.cfg.wf = true) (hb : s.cfg.mrBound = true)
    (hhost : (s.mresetting rest).noReset = true) (hw : s.writeFails = false) :
    ∃ host, (s.mresetCleared rest host).noReset = true ∧
      step (s.mresetting rest) = .next (s.mresetCleared rest host) := by
  have hstep : step (s.mresetting rest) = .next ((s.mresetting rest).afterWrite _) :=
    step_afterWrite hc (State.rstAsserted_of_noReset hhost) (.inr rfl) (mresetOp_first hb) nofun hw
  refine ⟨_, State.noReset_hostWaits (s := (s.mresetting rest).bankZeroed.clearRsp) hhost, ?_⟩
  rw [hstep, driveLow, State.afterWrite_zeroesAfter, State.afterWrite_eq_performed ⟨rfl, rfl, rfl⟩]
  exact congrArg _ (State.settle_of_lt (by show 0 + 1 < 24 * s.cfg.n + 4; omega))

theorem State.mresetCleared_plainFor {s : State} (hb : s.cfg.mrBound = true) (rest host : List HostMove) :
    (s.mresetCleared rest host).PlainFor (24 * s.cfg.n + 3) := by
  intro i hi
  obtain ⟨op, hop⟩ := Option.isSome_iff_exists.1
    (mresetOp_isSome (bank := []) (k := 0 + 1 + i) hb (by unfold mresetLen; omega))
  refine ⟨op, hop, ?_⟩
  obtain ⟨-, ⟨hfirst, -⟩ | ⟨-, -, hcommit⟩ | ⟨-, rfl⟩⟩ := mresetOp_cases hop
  · omega
  · exact commitOp_isPlain hcommit
  · exact ⟨rfl, rfl, rfl⟩

/-- The COMMIT in an MRESET sends a zero bank; then `MR` goes High (R134). -/
theorem State.mresetCleared_seqEvents {s : State} (hb : s.cfg.mrBound = true) (rest host : List HostMove) :
    (s.mresetCleared rest host).seqEvents (24 * s.cfg.n + 3) = commitWrites s.cfg.n [] ++ [.w .mr .h] := by
  have hlast : mresetOp s.cfg [] (1 + (24 * s.cfg.n + 2)) = some (driveHigh .mr) :=
    (congrArg _ (by omega)).trans (mresetOp_last hb)
  have hcommit : ∀ i ∈ List.range (24 * s.cfg.n + 2), mresetOp s.cfg [] (1 + i) = commitOp s.cfg.n [] i := by
    intro i hi
    have hlt := List.mem_range.1 hi
    rw [mresetOp_commit hb (by omega) (by omega), Nat.add_sub_cancel_left]
  rw [State.seqEvents_succ (s := s.mresetCleared rest host) (k := 24 * s.cfg.n + 2) hlast]
  refine congrArg (· ++ [Event.w .mr .h]) ?_
  show (List.range' 1 (24 * s.cfg.n + 2)).filterMap (fun i => (mresetOp s.cfg [] i).map MicroOp.event) = _
  rw [← commitEvents_eq_commitWrites, commitEvents, List.range'_eq_map_range, List.filterMap_map]
  exact List.filterMap_congr fun i hi => congrArg (Option.map MicroOp.event) (hcommit i hi)

/-- A presented MRESET on a bound line runs to its end, where it is answered. -/
theorem run_mreset {s : State} {rest : List HostMove} (hc : s.cfg.wf = true)
    (hw : s.writesSucceed (24 * s.cfg.n + 4)) (hb : s.cfg.mrBound = true) (hm : s.mode = .idle)
    (hp : s.presents 0x7000 rest) (hhost : s.noReset = true) :
    ∃ host, Host.Core.run core (24 * s.cfg.n + 5) s =
      .next ((s.mresetting rest).bankZeroed.performed (mresetWrites s.cfg.n) host).finish := by
  obtain ⟨host, hnoReset, hfirst⟩ := step_mreset_first hc hb (State.committing_noReset hp hhost) hw.writeFails
  have hw' : (s.mresetCleared rest host).writesSucceed (24 * s.cfg.n + 3) :=
    State.writesSucceed.performed (s := (s.mresetting rest).bankZeroed)
      (State.writesSucceed.mono (s := s) hw (by show 1 + (24 * s.cfg.n + 3) ≤ _; omega)) host
  obtain ⟨host', hrun⟩ := run_finishes (s := s.mresetCleared rest host) (k := 24 * s.cfg.n + 2) hc (.inr rfl) rfl
    hnoReset hw' (State.mresetCleared_plainFor hb rest host)
    (by show 0 + 1 + (24 * s.cfg.n + 2 + 1) = 24 * s.cfg.n + 4; omega)
  rw [State.mresetCleared_seqEvents hb, State.mresetCleared, State.performed_performed] at hrun
  exact ⟨host', (run_succ (step_mreset hc hm hb hp) _).trans ((run_succ hfirst _).trans hrun)⟩

theorem mresetWrites_length (n : Nat) : (mresetWrites n).length = 24 * n + 4 := by
  simp only [mresetWrites, List.length_append, List.length_singleton, commitWrites_length]
  omega

/-- Settles O40: the run of a presented MRESET to its end, field by field. -/
theorem mresetCompletes : Obligations.MresetCompletes := by
  intro s rest hc hw hb hm hp hhost hlen
  obtain ⟨host, hrun⟩ := run_mreset hc hw hb hm hp hhost
  have hlines := wiresAfter_mresetWrites_lines s.cfg (wires := (s.lines, s.chain)) ((cfg_wf_iff s.cfg).1 hc).1
  have hchain := wiresAfter_mresetWrites_chain s.cfg (wires := (s.lines, s.chain)) hb s.cfg.n
  have hzero : s.chain.clear.sh = List.replicate (8 * s.cfg.n) false := congrArg (List.replicate · false) hlen
  have hpin := congrArg s.pinErrAfter (mresetWrites_length s.cfg.n)
  refine ⟨_, hrun, rfl, ⟨rfl, rfl⟩, rfl, rfl, rfl, Memory.read_nil, hlines, (congrArg Chain.sh hchain).trans hzero,
    (congrArg Chain.q hchain).trans hzero, hpin, ?_⟩
  simp only [hm]
  rfl

end Sys2Proof.Machine
end


section
/-! SUPPORT. The driven chain (45_chain_reference): what a line write does to the two stages (R152 to R154, R156)
and when the output pins are driven (R151, R155). -/

namespace Sys2Proof.Machine

/-! The operations on the stages. -/

theorem Chain.clear_sh_eq_false (c : Chain) : ∀ b ∈ c.clear.sh, b = false := fun _ hb => List.eq_of_mem_replicate hb

theorem Chain.shift_length (d : Bool) (c : Chain) : (c.shift d).sh.length = c.sh.length := by simp [Chain.shift]

/-- A shift inserts the Data level at stage 0 and moves every stage up by one (R153). -/
theorem Chain.shift_getD (d : Bool) (c : Chain) {k : Nat} (hk : k < c.sh.length) :
    (c.shift d).sh.getD k false = if k = 0 then d else c.sh.getD (k - 1) false := by
  have hkept : (c.shift d).sh.getD k false = (d :: c.sh).getD k false := by
    simp only [Chain.shift, List.getD, List.getElem?_take_of_lt hk]
  rw [hkept]
  cases k with
  | zero => rfl
  | succ k => rfl

/-! The reaction of the chips, a line at a time (R152). -/

section
variable {cfg : Cfg} {before after : Lines} {c : Chain}

theorem Chain.react_mr_low (h : eff cfg after .mr = .l) : c.react cfg before after .mr = c.clear := if_pos h

theorem Chain.react_mr_high (h : eff cfg after .mr = .h) : c.react cfg before after .mr = c :=
  if_neg (by simp [h])

/-- The `SHCP` edge while Master-Clear is Low (R154). -/
theorem Chain.react_shcp_rising_clear (hold : eff cfg before .shcp = .l) (hnew : eff cfg after .shcp = .h)
    (hmr : eff cfg after .mr = .l) : c.react cfg before after .shcp = c.clear :=
  (if_pos ⟨hold, hnew⟩).trans (if_pos hmr)

/-- The `SHCP` edge while Master-Clear is High (R153). -/
theorem Chain.react_shcp_rising_shift (hold : eff cfg before .shcp = .l) (hnew : eff cfg after .shcp = .h)
    (hmr : eff cfg after .mr = .h) :
    c.react cfg before after .shcp = c.shift (decide (eff cfg after .ds = .h)) :=
  (if_pos ⟨hold, hnew⟩).trans (if_neg (by simp [hmr]))

theorem Chain.react_stcp_rising (hold : eff cfg before .stcp = .l) (hnew : eff cfg after .stcp = .h) :
    c.react cfg before after .stcp = c.latch := if_pos ⟨hold, hnew⟩

/-- A write of a clock line that ends Low or keeps the level is no rising edge. -/
theorem not_rising {x : Line} (h : eff cfg after x = .l ∨ eff cfg after x = eff cfg before x) :
    ¬(eff cfg before x = .l ∧ eff cfg after x = .h) := by
  rintro ⟨hold, hnew⟩
  rw [hold, or_self, hnew] at h
  cases h

/-- The chips react to rising edges of the clock lines only (R152). -/
theorem Chain.react_clock_unchanged {x : Line} (hx : x = .shcp ∨ x = .stcp)
    (h : ¬(eff cfg before x = .l ∧ eff cfg after x = .h)) : c.react cfg before after x = c := by
  obtain rfl | rfl := hx
  · exact if_neg h
  · exact if_neg h

end

/-- Settles O49: the clauses are the branches of the chips' reaction; a write of `SHCP` leaves `MR` and `DS` as they
were. -/
theorem chainReactions : Obligations.ChainReactions := by
  intro s x v t
  refine ⟨?_, ?_, ?_, ?_, ?_, ?_, fun hx h => Chain.react_clock_unchanged hx (not_rising h)⟩
  · rintro rfl hlow
    have ht : t.chain = s.chain.clear := Chain.react_mr_low (before := s.lines) hlow
    rw [ht]
    exact ⟨s.chain.clear_sh_eq_false, rfl⟩
  · rintro rfl hold hnew hmr
    have ht : t.chain = s.chain.clear := Chain.react_shcp_rising_clear hold hnew hmr
    rw [ht]
    exact ⟨s.chain.clear_sh_eq_false, rfl⟩
  · rintro rfl hold hnew hmr
    have ht : t.chain = s.chain.shift (decide (eff s.cfg s.lines .ds = .h)) :=
      Chain.react_shcp_rising_shift hold hnew hmr
    rw [ht]
    exact ⟨s.chain.shift_length _, rfl, fun k hk => s.chain.shift_getD _ hk⟩
  · rintro rfl hold hnew
    have ht : t.chain = s.chain.latch := Chain.react_stcp_rising hold hnew
    rw [ht]
    exact ⟨rfl, rfl⟩
  · rintro (rfl | rfl)
    · rfl
    · rfl
  · rintro rfl hhigh
    exact Chain.react_mr_high (before := s.lines) hhigh

/-! The output pins. -/

theorem eff_oe_eq_low_iff (cfg : Cfg) (ln : Lines) :
    eff cfg ln .oe = .l ↔ cfg.oeBound = false ∨ ln.oe = .l := by
  cases hb : cfg.oeBound with
  | false => simp [eff, hb]
  | true => cases ho : ln.oe <;> simp [eff, hb, ho, Level.pulledUp]

/-- Settles O50: the pins are driven exactly when the effective Output-Enable is Low; its write reaches no stage. -/
theorem outputPinsGated : Obligations.OutputPinsGated := by
  intro s k
  have hgate := eff_oe_eq_low_iff s.cfg s.lines
  refine ⟨fun hdriven => if_pos (hgate.2 hdriven), fun hbound hoe => if_neg fun heff => ?_, fun v => rfl⟩
  obtain hunbound | hlow := hgate.1 heff
  · exact absurd (hbound.symm.trans hunbound) (by decide)
  · exact hoe hlow

end Sys2Proof.Machine
end

section
/-! SUPPORT. The statuses and errors of the block (60_exceptions): the answer to a word that is no command (R171), the
`UNAVAIL` status (R174), construction without the pin capability (R175) and failed line writes (R176). -/

namespace Sys2Proof.Machine

/-! The step in `IDLE` and in `FAILED` (R171, R185). -/

/-- In `IDLE` the block takes a presented word off the port (R32). -/
theorem step_accepts {s : State} {w : Word} {rest : List HostMove} (hc : s.cfg.wf = true) (hm : s.mode = .idle)
    (hp : s.presents w rest) : step s = acceptWord w s.clearRsp.popHost := by
  obtain ⟨hr, hpres, -⟩ := hp.host_eq
  rw [step_no_reset hc hr]
  unfold State.run
  rw [State.clearRsp_mode, hm, show s.clearRsp.presented = some w from hpres]

theorem acceptWord_illegal {w : Word} {e : DecodeError} (h : decodeWord w = .error e) (s : State) :
    acceptWord w s = .next (s.raise .illegal w) := by
  unfold acceptWord
  rw [h]

/-- Settles O10: the word is taken off the port, and `raise` sets `PERR` and answers. -/
theorem illegalWordAnswered : Obligations.IllegalWordAnswered := by
  intro s w e rest hc hm hp he
  obtain ⟨-, -, htail⟩ := hp.host_eq
  rw [step_accepts hc hm hp, acceptWord_illegal he, ← htail]
  rfl

/-- With nothing to do the step is the host's move (R185). -/
theorem step_waits {s : State} (hc : s.cfg.wf = true) (hr : s.rstAsserted = false)
    (hm : s.mode = .idle ∧ s.presented = none ∨ s.mode = .failed) : step s = .next s.clearRsp.hostWaits := by
  rw [step_no_reset hc hr]
  unfold State.run
  obtain ⟨hm, hp⟩ | hm := hm
  · rw [State.clearRsp_mode, hm, show s.clearRsp.presented = none from hp]
  · rw [State.clearRsp_mode, hm]

/-- A host that presents no word holds none: its move is made. -/
theorem State.hostWaits_of_presented_none {s : State} (h : s.presented = none) : s.hostWaits = s.popHost := by
  unfold State.hostWaits
  split
  · rename_i w rest hh
    rw [State.presented_eq_some.2 ⟨rest, .inr hh⟩] at h
    cases h
  · rfl

/-- Settles O12: the host's move is the only thing the step makes. -/
theorem idleWaits : Obligations.IdleWaits := by
  intro s hc hm hr hp
  rw [step_waits hc hr (.inl ⟨hm, hp⟩), State.hostWaits_of_presented_none (s := s.clearRsp) hp]
  rfl

/-! The status `UNAVAIL` (R174). -/

/-- A command that answers has been accepted. -/
theorem State.accept_of_answers {s t : State} {f : State → State} {w : Word} {code : Code} {data : Word}
    (h : s.accept f = .next t) (ha : Answers s t w code data) : t = f s := by
  obtain ⟨-, ⟨-, ht⟩ | ⟨-, rfl⟩⟩ := State.accept_cases h
  · exact ht
  · simpa using ha.2

/-- The two ways to an `UNAVAIL` answer; its only effect is the answer. -/
theorem exec_unavail_cases {i : Instr} {s t : State} {w data : Word} (h : exec i s = .next t)
    (ha : Answers s t w .unavail data) :
    ((∃ v, i = .setoe v ∧ v ≠ s.outputEnabled ∧ s.cfg.oeBound = false) ∨ (i = .mreset ∧ s.cfg.mrBound = false)) ∧
      t = s.respond (encode i) .unavail 0 := by
  have hother (u : State) (w' : Word) {code : Code} (data' : Word) (hcode : code ≠ .unavail) :
      t ≠ u.respond w' code data' := by
    rintro rfl
    injection ha.1 with hr
    injection hr with _ hr
    exact hcode hr
  have hrange (w' : Word) : t ≠ s.raise .range w' := hother s.setPerr w' 0 (by decide)
  have hstarts (c : Cur) : t ≠ s.startSequence c := by
    rintro rfl
    simpa using ha.2
  cases i with
  | setbit idx v =>
    have ht := State.accept_of_answers (exec_setbit idx v s ▸ h) ha
    split_ifs at ht
    · exact absurd ht (hother _ _ _ (by decide))
    · exact absurd ht (hrange _)
  | setall v => exact absurd (State.accept_of_answers (exec_setall v s ▸ h) ha) (hother _ _ _ (by decide))
  | getbit idx =>
    have ht := State.accept_of_answers (exec_getbit idx s ▸ h) ha
    split_ifs at ht
    · exact absurd ht (hother _ _ _ (by decide))
    · exact absurd ht (hrange _)
  | rdbyte reg =>
    have ht := State.accept_of_answers (exec_rdbyte reg s ▸ h) ha
    split_ifs at ht
    · exact absurd ht (hother _ _ _ (by decide))
    · exact absurd ht (hrange _)
  | commit => exact absurd (State.accept_of_answers (exec_commit s ▸ h) ha) (hstarts _)
  | setoe v =>
    have ht := State.accept_of_answers (exec_setoe v s ▸ h) ha
    split_ifs at ht with hv hb hw
    · exact absurd ht (hother _ _ _ (by decide))
    · exact absurd ht (hother (s.askedOracle.driveFails .oe (!v)).toIdle _ _ (by decide))
    · exact absurd ht (hother _ _ _ (by decide))
    · exact ⟨.inl ⟨v, rfl, hv, by simpa using hb⟩, ht⟩
  | mreset =>
    have ht := State.accept_of_answers (exec_mreset s ▸ h) ha
    split_ifs at ht with hb
    · exact absurd ht (hstarts _)
    · exact ⟨.inr ⟨rfl, by simpa using hb⟩, ht⟩
  | status => exact absurd (State.accept_of_answers (exec_status s ▸ h) ha) (hother _ _ _ (by decide))

/-- Settles O41: an unbound Output-Enable is enabled (R26), so `SETOE 0` is the one that differs. -/
theorem unavailExactlyWhenUnbound : Obligations.UnavailExactlyWhenUnbound := by
  intro i s hc hm hen
  refine ⟨⟨?_, ?_⟩, fun t h ha => ?_⟩
  · rintro ⟨t, h, ha⟩
    obtain ⟨⟨v, rfl, hv, hb⟩ | hmreset, -⟩ := exec_unavail_cases h ha
    · rw [hen hb, ne_eq, Bool.not_eq_true] at hv
      exact .inl ⟨by rw [hv], hb⟩
    · exact .inr hmreset
  · rintro (⟨rfl, hb⟩ | ⟨rfl, hb⟩)
    · exact ⟨_, exec_setoe_unbound hc hm (by simp [hen hb]) hb, rfl, rfl⟩
    · obtain ⟨t, h, ha, -⟩ := mresetUnavailable s hc hm hb
      exact ⟨t, h, ha⟩
  · obtain ⟨-, rfl⟩ := exec_unavail_cases h ha
    rfl

/-! Construction without the pin capability (R175). -/

/-- The first step of construction tests the strap before it writes. -/
theorem step_noController {s : State} (hc : s.cfg.wf = true) (hr : s.rstAsserted = false) (hm : s.mode = .init)
    (hcur : s.cur = .init) (hupc : s.upc = 0) (hctrl : s.cfg.ctrlAvail = false) :
    step s = .next s.clearRsp.hostWaits.toFailed := by
  have hop : s.clearRsp.hostWaits.microOp = some { driveLow .ds with testsCtrl := true } := by
    rw [State.microOp_init (by simpa using hcur), State.hostWaits_upc, State.clearRsp_upc, hupc]
    rfl
  rw [step_controller hc hr (.inl hm), State.controllerStep_eq hop, State.microStep, if_pos (by simpa using hctrl)]

/-- Settles O44: the failing test; the waiting of a failed block; a reset that clears the strap and then that test. -/
theorem noControllerFailsConstruction : Obligations.NoControllerFailsConstruction := by
  refine ⟨fun s hc hr hm hcur hupc hctrl => ?_, fun s hc hr hm => ?_, fun s rest hc hh hrest => ?_⟩
  · refine ⟨_, step_noController hc hr hm hcur hupc hctrl, rfl, rfl, rfl, ?_⟩
    rw [State.hostWaits_eq]
    rfl
  · exact ⟨_, step_waits hc hr (.inr hm), State.hostWaits_eq _⟩
  · let u := s.popHost.assertRst false
    have hr : u.rstAsserted = false := by
      rw [← Bool.not_eq_true, State.rstAsserted_eq_true]
      rintro ⟨avail, rest', h⟩
      rw [State.assertRst_host, State.popHost_host, hh, List.tail_cons] at h
      exact hrest avail (by rw [h]; rfl)
    refine ⟨u.clearRsp.hostWaits.toFailed, ?_, rfl, State.hostWaits_trace _, State.hostWaits_lines _, rfl, rfl⟩
    rw [run_succ (step_reset hc hh), run_succ (step_noController (s := u) hc hr rfl rfl rfl rfl)]
    rfl

/-! Failed line writes (R176). -/

/-- From `s` to `t` the write of line `x` failed: one `WF`, that line old or new, every other line as it was, `PF` set;
the cached Output-Enable state and `PERR` as they were. -/
structure MissesLine (s t : State) (x : Line) (high : Bool) : Prop where
  trace : t.trace = s.trace ++ [.wf x (Level.ofBool high)]
  line : t.lines.get x = Level.ofBool high ∨ t.lines.get x = s.lines.get x
  others : ∀ y, y ≠ x → t.lines.get y = s.lines.get y
  pf : t.pf = true
  outputEnabled : t.outputEnabled = s.outputEnabled
  perr : t.perr = s.perr

/-- The one failing operation, `driveFails`, misses its line. -/
theorem State.driveFails_missesLine (s : State) (x : Line) (high : Bool) :
    MissesLine s (s.askedOracle.driveFails x high) x high where
  trace := rfl
  line := by
    rw [State.driveFails_lines, Lines.get_set_same]
    exact s.askedOracle.drawnLevel_cases x _
  others y hy := by
    rw [State.driveFails_lines, Lines.get_set_other _ _ hy]
    rfl
  pf := rfl
  outputEnabled := rfl
  perr := rfl

theorem MissesLine.abandon {s t : State} {x : Line} {high : Bool} (h : MissesLine s t x high) :
    MissesLine s t.abandon x high := by
  obtain ⟨-, -, hlines, hen, hperr, hpf, -, htrace, -⟩ := t.abandon_frame
  exact ⟨htrace.trans h.trace, hlines ▸ h.line, hlines ▸ h.others, hpf.trans h.pf, hen.trans h.outputEnabled,
    hperr.trans h.perr⟩

/-- What a step of a running sequence leaves when its write of `op` has failed (R176). -/
def State.afterFailure (s : State) (op : MicroOp) : State := (s.clearRsp.hostWaits.miswritten op).abandon

theorem step_afterFailure {s : State} {op : MicroOp} (hc : s.cfg.wf = true) (hr : s.rstAsserted = false)
    (hm : s.mode = .init ∨ s.mode = .busy) (hop : s.microOp = some op)
    (htest : op.testsCtrl = true → s.cfg.ctrlAvail = true) (hw : s.writeFails = true) :
    step s = .next (s.afterFailure op) := by
  have hop' : s.clearRsp.hostWaits.microOp = some op := by
    simpa [State.microOp] using hop
  have hw' : s.clearRsp.hostWaits.writeFails = true := by
    simpa [State.writeFails] using hw
  rw [step_controller hc hr hm, State.controllerStep_fails hop' (by simpa using htest) hw', State.driveFails_before,
    State.afterFailure]

section
variable (s : State) (op : MicroOp)

theorem State.afterFailure_missesLine : MissesLine s (s.afterFailure op) op.line op.high := by
  have h := s.driveFails_missesLine op.line op.high
  rw [State.afterFailure, State.hostWaits_eq]
  exact .abandon ⟨h.trace, h.line, h.others, h.pf, h.outputEnabled, h.perr⟩

theorem State.afterFailure_bits : (s.afterFailure op).bits = if op.zeroesBefore then [] else s.bits := by
  obtain ⟨-, hbits, -⟩ := (s.clearRsp.hostWaits.miswritten op).abandon_frame
  rw [State.afterFailure, hbits, State.miswritten_bits, State.hostWaits_bits, State.clearRsp_bits]

end

section
variable {s : State} (op : MicroOp)

@[simp] theorem State.miswritten_responses : (s.miswritten op).responses = s.responses := rfl

/-- A command is abandoned with the answer `ERR_PIN`. -/
theorem State.afterFailure_answers {w : Word} (hm : s.mode = .busy) (hw : s.cur.command = some w) :
    (s.afterFailure op).mode = .idle ∧ (s.afterFailure op).cur = .none ∧ (s.afterFailure op).upc = 0 ∧
      Answers s (s.afterFailure op) w .errPin 0 := by
  rw [State.afterFailure, State.abandon_command (by simp [hm]) (by simpa using hw)]
  simp [Answers]

/-- Construction fails without an answer. -/
theorem State.afterFailure_init (hm : s.mode = .init) :
    (s.afterFailure op).mode = .failed ∧ (s.afterFailure op).cur = .none ∧ (s.afterFailure op).upc = 0 ∧
      (s.afterFailure op).rsp = none ∧ (s.afterFailure op).responses = s.responses := by
  rw [State.afterFailure, State.abandon_init (by simpa using hm)]
  simp

end

/-- In COMMIT and MRESET no micro-operation has an action before its write: neither the test of the strap nor the
zeroing of the bank (R111, R134). -/
theorem State.microOp_command_writesFirst {s : State} {op : MicroOp} (hcur : s.cur = .commit ∨ s.cur = .mreset)
    (hop : s.microOp = some op) : op.testsCtrl = false ∧ op.zeroesBefore = false := by
  have hplain {bank : Memory} {k : Nat} (h : commitOp s.cfg.n bank k = some op) :
      op.testsCtrl = false ∧ op.zeroesBefore = false := ⟨(commitOp_plain h).1, (commitOp_plain h).2.1⟩
  obtain hcur | hcur := hcur
  · exact hplain (State.microOp_commit hcur ▸ hop)
  · obtain ⟨-, ⟨-, rfl⟩ | ⟨-, -, hcommit⟩ | ⟨-, rfl⟩⟩ := mresetOp_cases (State.microOp_mreset hcur ▸ hop)
    · exact ⟨rfl, rfl⟩
    · exact hplain hcommit
    · exact ⟨rfl, rfl⟩

/-- Settles O45: the write misses its line, the command is abandoned, and there was no action before the write. -/
theorem pinFaultAbandonsCommand : Obligations.PinFaultAbandonsCommand := by
  intro s op hc hr hm hcur hop hw
  obtain ⟨htest, hzero⟩ := State.microOp_command_writesFirst hcur hop
  have hword : s.cur.command = some (if s.cur = .commit then 0x5000 else 0x7000) := by
    obtain hcur | hcur := hcur <;> rw [hcur] <;> rfl
  have hmiss := s.afterFailure_missesLine op
  obtain ⟨hmode, hnone, hupc, hans⟩ := State.afterFailure_answers op hm hword
  refine ⟨_, step_afterFailure hc hr (.inr hm) hop (by simp [htest]) hw, hans, hmiss.trace, hmiss.line, hmiss.others,
    hmiss.pf, hmode, hnone, hupc, ?_, hmiss.outputEnabled, hmiss.perr⟩
  rw [State.afterFailure_bits, hzero]
  rfl

/-- Settles O46: the write misses its line, and construction fails. -/
theorem pinFaultFailsConstruction : Obligations.PinFaultFailsConstruction := by
  intro s op hc hr hm _ hctrl hop hw
  have hmiss := s.afterFailure_missesLine op
  obtain ⟨hmode, hnone, hupc, hrsp, hlog⟩ := State.afterFailure_init op hm
  exact ⟨_, step_afterFailure hc hr (.inl hm) hop (fun _ => hctrl) hw, hmode, hnone, hupc, hmiss.pf, hrsp, hlog,
    hmiss.trace, hmiss.line, hmiss.others⟩

/-- A SETOE whose write fails (R131, R176). -/
theorem exec_setoe_fails {s : State} {v : Bool} (hc : s.cfg.wf = true) (hm : s.mode = .idle)
    (hv : v ≠ s.outputEnabled) (hb : s.cfg.oeBound = true) (hw : s.writeFails = true) :
    exec (.setoe v) s = .next ((s.askedOracle.driveFails .oe (!v)).raise .pinFault (encode (.setoe v))) := by
  rw [exec_setoe, State.accept_idle _ hc hm, if_neg hv, if_pos hb, if_pos hw]

/-- Settles O35: the write misses `OE`, and `raise` answers and returns to `IDLE`. -/
theorem setoeWriteFails : Obligations.SetoeWriteFails := by
  intro s v hc hm hb hv hw
  have hmiss := s.driveFails_missesLine .oe (!v)
  exact ⟨_, exec_setoe_fails hc hm hv hb hw, ⟨rfl, rfl⟩, hmiss.outputEnabled, hmiss.pf, hmiss.trace, hmiss.line, rfl,
    rfl, rfl⟩

end Sys2Proof.Machine
end

section
/-! SUPPORT. Reset (70_reset R190), and that the machine never stops: every step answers a next state, and a running
sequence ends within the micro-operations it has left (70_reset R206, 10_state R28). -/

namespace Sys2Proof.Machine

/-- Settles O13: `assertRst` after the host's move is the record of the statement. -/
theorem resetIsDominant : Obligations.ResetIsDominant := by
  intro s avail rest hc hh
  rw [step_reset hc hh, State.assertRst, State.popHost, hh]
  rfl

/-! The position of a running sequence (R28). -/

section
variable {s : State} (h : s.Inv) (hm : s.mode = .init ∨ s.mode = .busy)
include h hm

/-- The sequence that runs, and that its position lies in it. -/
theorem State.Inv.position_cases :
    (s.cur = .init ∧ s.upc < initLen s.cfg) ∨ (s.cur = .commit ∧ s.upc < commitLen s.cfg.n) ∨
      (s.cur = .mreset ∧ s.cfg.mrBound = true ∧ s.upc < mresetLen s.cfg.n) := by
  have hpos := h.position
  obtain hm | hm := hm
  · exact .inl (by simpa only [State.positionFits, hm] using hpos)
  · exact .inr (by simpa only [State.positionFits, hm] using hpos)

theorem State.Inv.upc_lt_seqLen : s.upc < s.seqLen := by
  obtain ⟨hc, hu⟩ | ⟨hc, hu⟩ | ⟨hc, -, hu⟩ := h.position_cases hm
  · rwa [State.seqLen_init hc]
  · rwa [State.seqLen_commit hc]
  · rwa [State.seqLen_mreset hc]

/-- Construction with both optional lines is the longest sequence (R111, R134, R191). -/
theorem State.Inv.seqLen_le : s.seqLen ≤ 24 * s.cfg.n + 7 := by
  obtain ⟨hc, -⟩ | ⟨hc, -⟩ | ⟨hc, -⟩ := h.position_cases hm
  · have hprefix := (initPrefixLen_le s.cfg).2
    rw [State.seqLen_init hc, initLen]
    omega
  · rw [State.seqLen_commit hc]
    omega
  · rw [State.seqLen_mreset hc]
    omega

theorem State.Inv.microOp_isSome : s.microOp.isSome = true := by
  obtain ⟨hc, hu⟩ | ⟨hc, hu⟩ | ⟨hc, hb, hu⟩ := h.position_cases hm
  · rw [State.microOp_init hc]
    exact initOp_isSome hu
  · rw [State.microOp_commit hc]
    exact commitOp_isSome.2 hu
  · rw [State.microOp_mreset hc]
    exact mresetOp_isSome hb hu

/-- Without a reset the step of a running sequence performs the micro-operation at its position (R112). -/
theorem State.Inv.step_microStep (hr : s.rstAsserted = false) :
    ∃ op, step s = .next (s.clearRsp.hostWaits.microStep op) := by
  obtain ⟨op, hop⟩ := Option.isSome_iff_exists.1 (h.clearRsp.hostWaits.microOp_isSome (by simpa using hm))
  exact ⟨op, by rw [step_controller h.cfgWf hr hm, State.controllerStep_eq hop]⟩

end

/-- In `IDLE` a presented word is answered, or the command it encodes is executed (R32, R80). -/
theorem step_presented_answers {s : State} {w : Word} {rest : List HostMove} (hc : s.cfg.wf = true)
    (hm : s.mode = .idle) (hp : s.presents w rest) : ∃ t, step s = .next t := by
  cases hd : decodeWord w with
  | error e => exact ⟨_, illegalWordAnswered s w e rest hc hm hp hd⟩
  | ok i =>
    obtain ⟨run, hrun⟩ := exec_accept i
    rw [stepRunsDecodedCommand s w i rest hc hm hp hd, hrun]
    exact ⟨_, State.accept_idle run hc hm⟩

/-- Settles O53: a reset, or by the mode; the invariant gives a running sequence its micro-operation. -/
theorem stepNeverStops : Obligations.StepNeverStops := by
  intro s h
  cases hr : s.rstAsserted with
  | true =>
    obtain ⟨avail, rest, hh⟩ := State.rstAsserted_eq_true.1 hr
    exact ⟨_, step_reset h.cfgWf hh⟩
  | false =>
    have hrunning (hm : s.mode = .init ∨ s.mode = .busy) : ∃ t, step s = .next t := by
      obtain ⟨op, hstep⟩ := h.step_microStep hm hr
      exact ⟨_, hstep⟩
    cases hm : s.mode with
    | init => exact hrunning (.inl hm)
    | busy => exact hrunning (.inr hm)
    | failed => exact ⟨_, step_waits h.cfgWf hr (.inr hm)⟩
    | idle =>
      cases hp : s.presented with
      | none => exact ⟨_, step_waits h.cfgWf hr (.inl ⟨hm, hp⟩)⟩
      | some w =>
        obtain ⟨rest, hpresents⟩ := State.presented_eq_some.1 hp
        exact step_presented_answers h.cfgWf hm hpresents

/-! The end of a running sequence (R112, R175, R176). -/

theorem State.abandon_mode (s : State) : s.abandon.mode = .idle ∨ s.abandon.mode = .failed := by
  unfold State.abandon
  split_ifs
  · exact .inr rfl
  · split
    · exact .inl rfl
    · exact .inl rfl

theorem State.finish_mode (s : State) : s.finish.mode = .idle := by
  unfold State.finish
  split <;> rfl

/-- A micro-operation ends its sequence or leads to the next position. -/
theorem State.microStep_ends_or_goesOn (s : State) (op : MicroOp) :
    ((s.microStep op).mode = .idle ∨ (s.microStep op).mode = .failed) ∨
      ((s.microStep op).mode = s.mode ∧ (s.microStep op).seqLen = s.seqLen ∧ (s.microStep op).upc = s.upc + 1) := by
  obtain heq | ⟨-, heq⟩ | heq := s.microStep_cases op <;> rw [heq]
  · exact .inl (.inr rfl)
  · exact .inl (s.miswritten op).abandon_mode
  · unfold State.advance
    split_ifs
    · exact .inl (.inl (State.finish_mode _))
    · exact .inr ⟨rfl, rfl, rfl⟩

theorem State.microStep_host (s : State) (op : MicroOp) : (s.microStep op).host = s.host := by
  obtain heq | ⟨-, heq⟩ | heq := s.microStep_cases op <;> rw [heq]
  · rfl
  · obtain ⟨-, -, -, -, -, -, -, -, hhost, -⟩ := (s.miswritten op).abandon_frame
    exact hhost
  · obtain ⟨-, -, -, -, -, -, -, -, hhost, -⟩ := (s.written op).advance_frame
    exact hhost

/-- Without a reset the step of a running sequence ends it or leads to its next position. -/
theorem State.Inv.step_ends_or_goesOn {s : State} (h : s.Inv) (hm : s.mode = .init ∨ s.mode = .busy)
    (hhost : s.noReset = true) :
    ∃ t, step s = .next t ∧ ((t.mode = .idle ∨ t.mode = .failed) ∨
      (t.mode = s.mode ∧ t.noReset = true ∧ t.seqLen = s.seqLen ∧ t.upc = s.upc + 1)) := by
  obtain ⟨op, hstep⟩ := h.step_microStep hm (State.rstAsserted_of_noReset hhost)
  have hnoReset : (s.clearRsp.hostWaits.microStep op).noReset = true := by
    rw [State.noReset, State.microStep_host]
    exact State.noReset_hostWaits (s := s.clearRsp) hhost
  refine ⟨_, hstep, (s.clearRsp.hostWaits.microStep_ends_or_goesOn op).imp_right fun ⟨hmode, hlen, hupc⟩ => ?_⟩
  exact ⟨by simpa using hmode, hnoReset, by simpa [State.seqLen] using hlen, by simpa using hupc⟩

/-- A running sequence ends, by induction on the micro-operations it has left. -/
theorem run_ends {s : State} {d : Nat} (h : s.Inv) (hm : s.mode = .init ∨ s.mode = .busy) (hhost : s.noReset = true)
    (hd : s.seqLen - s.upc ≤ d) :
    ∃ k t, k ≤ d ∧ Host.Core.run core k s = .next t ∧ (t.mode = .idle ∨ t.mode = .failed) := by
  induction d generalizing s with
  | zero =>
    have hlt := h.upc_lt_seqLen hm
    omega
  | succ d ih =>
    obtain ⟨t, hstep, hend | ⟨hmode, hhost', hlen, hupc⟩⟩ := h.step_ends_or_goesOn hm hhost
    · exact ⟨1, t, by omega, run_succ hstep 0, hend⟩
    · obtain ⟨k, u, hk, hrun, hend⟩ := ih (stepKeepsInvariant s t h hstep) (by rwa [hmode]) hhost' (by omega)
      exact ⟨k + 1, u, by omega, (run_succ hstep k).trans hrun, hend⟩

/-- Settles O54: the longest sequence is that long, and each step but the last goes one position on. -/
theorem runningSequenceEnds : Obligations.RunningSequenceEnds := fun _ h hm hhost =>
  ⟨(Nat.sub_le _ _).trans (h.seqLen_le hm), run_ends h hm hhost le_rfl⟩

end Sys2Proof.Machine
end

section
/-! SUPPORT. A construction that runs to its end (70_reset R191, R195): before a zero bank and with the pin capability
every micro-operation of InitSeq acts as its write alone, and these writes zero the chips whatever they held. -/

namespace Sys2Proof.Machine

/-! The writes of InitSeq (R191). -/

/-- The writes of construction before its COMMIT (R191, R194). -/
def initPrefixWrites (cfg : Cfg) : List Event :=
  [.w .ds .l, .w .stcp .l, .w .shcp .l] ++ (if cfg.oeBound then [.w .oe .h] else []) ++
    (if cfg.mrBound then [.w .mr .h] else [])

theorem initWrites_eq (cfg : Cfg) : initWrites cfg = initPrefixWrites cfg ++ commitWrites cfg.n [] := rfl

theorem initWrites_length (cfg : Cfg) : (initWrites cfg).length = initLen cfg := by
  have hprefix : (initPrefixWrites cfg).length = initPrefixLen cfg := by
    unfold initPrefixWrites initPrefixLen
    cases cfg.oeBound <;> cases cfg.mrBound <;> rfl
  rw [initWrites_eq, List.length_append, hprefix, commitWrites_length, initLen, Nat.add_assoc]

/-- The first positions of InitSeq: the mandatory lines, then the bound optional ones. -/
theorem initOp_prefixEvents (cfg : Cfg) (bank : Memory) :
    ((List.range (initPrefixLen cfg)).filterMap fun k => (initOp cfg bank k).map MicroOp.event) =
      initPrefixWrites cfg := by
  cases ho : cfg.oeBound <;> cases hm : cfg.mrBound <;>
    simp [List.range_succ, initOp, initPrefixLen, initOptional, initPrefixWrites, MicroOp.event, driveLow, driveHigh,
      Level.ofBool, ho, hm]

/-- From `c0` on the writes are those of CommitSeq; the zeroing at `c0` is none. -/
theorem initOp_commitEvent (cfg : Cfg) (bank : Memory) {j : Nat} (hj : j < 24 * cfg.n + 2) :
    (initOp cfg bank (initPrefixLen cfg + j)).map MicroOp.event = (commitOp cfg.n bank j).map MicroOp.event := by
  have hlt : initPrefixLen cfg + j < initLen cfg := by
    unfold initLen
    omega
  obtain ⟨op, hop⟩ := Option.isSome_iff_exists.1 (initOp_isSome (bank := bank) hlt)
  obtain ⟨-, op', hop', hline, hhigh⟩ := initOp_commit hop (Nat.le_add_right _ _)
  rw [Nat.add_sub_cancel_left] at hop'
  simp only [hop, hop', Option.map_some, MicroOp.event, hline, hhigh]

/-- The positions of InitSeq make the writes of R191. -/
theorem initOp_events (cfg : Cfg) :
    ((List.range (initLen cfg)).filterMap fun k => (initOp cfg [] k).map MicroOp.event) = initWrites cfg := by
  rw [initLen, Nat.add_assoc, List.range_add, List.filterMap_append, initOp_prefixEvents, initWrites_eq,
    ← commitEvents_eq_commitWrites, commitEvents, List.filterMap_map]
  exact congrArg _ (List.filterMap_congr fun j hj => initOp_commitEvent cfg [] (List.mem_range.1 hj))

/-! What they make of the lines and the chips (R195). -/

section
variable (cfg : Cfg) (wires : Lines × Chain)

/-- The first writes of construction set their lines and leave the chips as they are. -/
theorem wiresAfter_initPrefixWrites :
    wiresAfter cfg wires (initPrefixWrites cfg) =
      (⟨.l, .l, .l, if cfg.oeBound then .h else wires.1.oe, if cfg.mrBound then .h else wires.1.mr⟩, wires.2) := by
  have hdata (p : Lines × Chain) : (Event.w .ds .l).act cfg p = (p.1.set .ds .l, p.2) := rfl
  have hoe (p : Lines × Chain) : (Event.w .oe .h).act cfg p = (p.1.set .oe .h, p.2) := rfl
  cases ho : cfg.oeBound <;> cases hm : cfg.mrBound <;>
    simp [initPrefixWrites, wiresAfter, ho, hm, hdata, hoe, act_latchLow, act_clockLow, act_masterClearHigh, Lines.set]

/-- The lines after a construction (R33, R114). -/
theorem wiresAfter_initWrites_lines (hn : 1 ≤ cfg.n) :
    (wiresAfter cfg wires (initWrites cfg)).1 =
      ⟨.l, .h, .h, if cfg.oeBound then .h else wires.1.oe, if cfg.mrBound then .h else wires.1.mr⟩ := by
  rw [initWrites_eq, wiresAfter_append, wiresAfter_initPrefixWrites, wiresAfter_commitWrites_lines _ _ hn]
  rfl

/-- A construction zeroes both stages, whatever they held (R195, R157). -/
theorem wiresAfter_initWrites_chain (hlen : wires.2.sh.length = 8 * cfg.n) :
    (wiresAfter cfg wires (initWrites cfg)).2 =
      ⟨List.replicate (8 * cfg.n) false, List.replicate (8 * cfg.n) false⟩ := by
  have hzero : bankPattern cfg.n [] = List.replicate (8 * cfg.n) false := by
    simp [bankPattern, List.eq_replicate_iff, Memory.bitRead]
  have hmr : eff cfg (wiresAfter cfg wires (initPrefixWrites cfg)).1 .mr = .h := by
    rw [wiresAfter_initPrefixWrites]
    cases hb : cfg.mrBound <;> simp [eff, hb, Level.pulledUp]
  rw [initWrites_eq, wiresAfter_append, wiresAfter_commit_latches _ _ _ hmr, hzero]
  rwa [wiresAfter_initPrefixWrites]

end

/-! The run. -/

/-- Before a zero bank a micro-operation acts as its write alone: zeroing the bank changes nothing. -/
theorem State.afterWrite_of_bits_nil {s : State} (op : MicroOp) (hz : s.bits = []) :
    s.afterWrite op = (s.performed [op.event] s.clearRsp.hostWaits.host).settle := by
  have hbare : s.afterWrite op = s.afterWrite { line := op.line, high := op.high } := by
    have hz' : s.clearRsp.hostWaits.bits = [] := by simpa using hz
    simp only [State.afterWrite, State.written, hz', ite_self]
  rw [hbare, State.afterWrite_eq_performed ⟨rfl, rfl, rfl⟩]
  rfl

/-- The writes ahead are the one made now and those ahead of the next position. -/
theorem State.seqEvents_cons {s : State} {op : MicroOp} (hop : s.microOp = some op) (k : Nat) (host : List HostMove) :
    s.seqEvents (k + 1) = op.event :: (s.performed [op.event] host).seqEvents k := by
  have hfirst : { s with upc := s.upc }.microOp.map MicroOp.event = some op.event := congrArg _ hop
  rw [State.seqEvents, List.range'_succ, List.filterMap_cons, hfirst]
  rfl

/-- In construction before a zero bank, with `k` micro-operations to go, the pin capability there, none of the writes
failing and a host that does not reset. -/
structure State.Building (s : State) (k : Nat) : Prop where
  cfgWf : s.cfg.wf = true
  ctrl : s.cfg.ctrlAvail = true
  mode : s.mode = .init
  cur : s.cur = .init
  bank : s.bits = []
  position : s.upc + k = initLen s.cfg
  host : s.noReset = true
  writes : s.writesSucceed k

section
variable {s : State} {k : Nat}

/-- The next step makes the write at the position, and ends the construction if that was its last (R112). -/
theorem State.Building.step_eq (h : s.Building (k + 1)) :
    ∃ op host, s.microOp = some op ∧ (s.performed [op.event] host).noReset = true ∧
      step s = .next (s.performed [op.event] host).settle := by
  have hlt : s.upc < initLen s.cfg := by
    have := h.position
    omega
  obtain ⟨op, hop⟩ := Option.isSome_iff_exists.1 (initOp_isSome (bank := s.bits) hlt)
  have hmicro := (State.microOp_init h.cur).trans hop
  refine ⟨op, s.clearRsp.hostWaits.host, hmicro, State.noReset_hostWaits (s := s.clearRsp) h.host, ?_⟩
  rw [step_afterWrite h.cfgWf (State.rstAsserted_of_noReset h.host) (.inl h.mode) hmicro (fun _ => h.ctrl)
    h.writes.writeFails, State.afterWrite_of_bits_nil op h.bank]

/-- A write leaves one micro-operation less to go. -/
theorem State.Building.performed (h : s.Building (k + 1)) {e : Event} {host : List HostMove}
    (hhost : (s.performed [e] host).noReset = true) : (s.performed [e] host).Building k where
  cfgWf := h.cfgWf
  ctrl := h.ctrl
  mode := h.mode
  cur := h.cur
  bank := h.bank
  position := (Nat.add_right_comm _ 1 k).trans h.position
  host := hhost
  writes := State.writesSucceed.performed (evs := [e]) (Nat.add_comm k 1 ▸ h.writes) host

theorem State.Building.upc_add (h : s.Building k) : s.upc + k = s.seqLen :=
  h.position.trans (State.seqLen_init h.cur).symm

/-- A construction makes all the writes it has left, by induction on their number (R191). -/
theorem State.Building.run (h : s.Building (k + 1)) :
    ∃ host, Host.Core.run core (k + 1) s = .next (s.performed (s.seqEvents (k + 1)) host).finish := by
  induction k generalizing s with
  | zero =>
    obtain ⟨op, host, hop, hhost, hstep⟩ := h.step_eq
    have hend := (h.performed hhost).upc_add
    rw [State.settle_of_eq hend] at hstep
    rw [State.seqEvents_cons hop 0 host]
    exact ⟨host, run_succ hstep 0⟩
  | succ k ih =>
    obtain ⟨op, host, hop, hhost, hstep⟩ := h.step_eq
    have hnext := h.performed hhost
    have hmore := hnext.upc_add
    rw [State.settle_of_lt (by omega)] at hstep
    obtain ⟨host', hrun⟩ := ih hnext
    rw [State.performed_performed] at hrun
    rw [State.seqEvents_cons hop (k + 1) host]
    exact ⟨host', (run_succ hstep _).trans hrun⟩

end

/-- A construction from its first position runs to its end, where nothing is answered (R112, R191). -/
theorem run_construction {s : State} (h : s.Building (initLen s.cfg)) :
    ∃ host, Host.Core.run core (initLen s.cfg) s = .next (s.performed (initWrites s.cfg) host).toIdle := by
  have hfirst : s.upc = 0 := Nat.add_eq_right.1 h.position
  have hevents : s.seqEvents (initLen s.cfg) = initWrites s.cfg := by
    rw [State.seqEvents, hfirst, ← List.range_eq_range', ← initOp_events]
    simp only [State.microOp, h.cur, h.bank]
  obtain ⟨host, hrun⟩ := State.Building.run (k := initPrefixLen s.cfg + 24 * s.cfg.n + 1) h
  have hquiet : (s.performed (initWrites s.cfg) host).finish = (s.performed (initWrites s.cfg) host).toIdle := by
    have hcur : (s.performed (initWrites s.cfg) host).cur = .init := h.cur
    rw [State.finish, hcur]
    rfl
  exact ⟨host, by rw [← hquiet, ← hevents]; exact hrun⟩

/-- Settles O43: the run of a construction to its end, field by field. -/
theorem constructionCompletes : Obligations.ConstructionCompletes := by
  intro cfg chain moves answers draws s hc hw hctrl hhost hlen
  have hbuilding : s.Building (initLen s.cfg) := ⟨hc, hctrl, rfl, rfl, rfl, Nat.zero_add _, hhost, hw⟩
  obtain ⟨host, hrun⟩ := run_construction hbuilding
  have hlines := wiresAfter_initWrites_lines cfg (s.lines, s.chain) ((cfg_wf_iff cfg).1 hc).1
  have hchain := wiresAfter_initWrites_chain cfg (s.lines, s.chain) hlen
  have hpin := congrArg s.pinErrAfter (initWrites_length cfg)
  exact ⟨_, hrun, Memory.read_nil, hlines, rfl, rfl, rfl, rfl, rfl, rfl, rfl, rfl, rfl, rfl, hpin, rfl,
    congrArg Chain.sh hchain, congrArg Chain.q hchain⟩

end Sys2Proof.Machine
end
